-- ==== Sys2Proof/Word.lean ====
section
/-! DEFINITION. The word types of the block. -/

namespace Sys2Proof

/-- A byte of a memory or of a frame. -/
abbrev Byte := BitVec 8
/-- An integer register of a scalar core (R160). -/
abbrev Word := BitVec 32
/-- A floating register, a control register (R160, R97). -/
abbrev DWord := BitVec 64
/-- The 64-byte payload of a flit or a barge, or one Hold line; byte 0 is the least significant (R12). -/
abbrev Line := BitVec 512

end Sys2Proof
end

