-- ==== Sys2Proof/Syntax.lean ====
section
/-! DEFINITION. The commands of the block: one constructor per row of the opcode table, in the table's order.
A row is one indivisible step of the part; its operands are what the row's moment, place and surroundings fix:
the unit it happens at, and what comes from outside the part (a frame, a reading, an upset of a memory word). -/

namespace Sys2Proof

/-- One command waiting at the block, or one event of its own agents.
`t` is a physical tile index (R5), `e` an engine (0 MXE, 1 VXE, 2 XE), `fn` a PCIe function (257 times the
host port plus the function number), `ups` the words of tile memory that an upset has struck before the
row reads them (word index; `true` for an uncorrectable error). -/
inductive Instr where
  /-- Scalar NOP instruction occupies the core for one cc and has no effect. (R161) -/
  | nop (t : Nat)
  /-- An unlisted opcode, unlisted FN, nonzero reserved field or unaccepted rounding mode takes a precise ILLEGAL_INSTRUCTION tile fault. (R161) -/
  | illegalInstruction (t : Nat)
  /-- Register-register integer operation selected by FN, with division defined for zero and overflow. (R161) -/
  | alu (t : Nat)
  /-- Adds a sign-extended immediate to a register. (R161) -/
  | addi (t : Nat)
  /-- ANDs a zero-extended immediate with a register. (R161) -/
  | andi (t : Nat)
  /-- ORs a zero-extended immediate with a register. (R161) -/
  | ori (t : Nat)
  /-- XORs a zero-extended immediate with a register. (R161) -/
  | xori (t : Nat)
  /-- Sets a register to 1 when a register is less than a signed immediate. (R161) -/
  | slti (t : Nat)
  /-- Sets a register to 1 when a register is below an immediate compared unsigned. (R161) -/
  | sltiu (t : Nat)
  /-- Shifts a register by an immediate amount, SLL, SRL or SRA as IMM selects. (R161) -/
  | shi (t : Nat)
  /-- Loads a 20-bit immediate into the upper bits of a register. (R161) -/
  | lui (t : Nat)
  /-- Loads a sign-extended byte from tile memory after the address checks. (R164) -/
  | lb (t : Nat) (ups : List (Nat × Bool))
  /-- Loads a zero-extended byte from tile memory. (R164) -/
  | lbu (t : Nat) (ups : List (Nat × Bool))
  /-- Loads a sign-extended halfword from tile memory. (R164) -/
  | lh (t : Nat) (ups : List (Nat × Bool))
  /-- Loads a zero-extended halfword from tile memory. (R164) -/
  | lhu (t : Nat) (ups : List (Nat × Bool))
  /-- Loads a 32-bit word from tile memory. (R164) -/
  | lw (t : Nat) (ups : List (Nat × Bool))
  /-- Loads a 32-bit word into a floating register, upper half zero. (R164) -/
  | flw (t : Nat) (ups : List (Nat × Bool))
  /-- Loads 8 bytes into a floating register. (R164) -/
  | fld (t : Nat) (ups : List (Nat × Bool))
  /-- Stores a byte by read-modify-write of its word, refusing to merge into a failing word. (R164) -/
  | sb (t : Nat) (ups : List (Nat × Bool))
  /-- Stores a halfword by read-modify-write of its word. (R164) -/
  | sh (t : Nat) (ups : List (Nat × Bool))
  /-- Stores a 32-bit word by read-modify-write of its 8-byte word. (R164) -/
  | sw (t : Nat) (ups : List (Nat × Bool))
  /-- Stores the low half of a floating register by read-modify-write. (R164) -/
  | fsw (t : Nat) (ups : List (Nat × Bool))
  /-- Stores a whole 8-byte word with new check bits, clearing poison. (R164) -/
  | fsd (t : Nat)
  /-- Branches when two registers are equal. (R161) -/
  | beq (t : Nat)
  /-- Branches when two registers differ. (R161) -/
  | bne (t : Nat)
  /-- Branches when one register is less than another, signed. (R161) -/
  | blt (t : Nat)
  /-- Branches when one register is greater or equal, signed. (R161) -/
  | bge (t : Nat)
  /-- Branches when one register is less than another, unsigned. (R161) -/
  | bltu (t : Nat)
  /-- Branches when one register is greater or equal, unsigned. (R161) -/
  | bgeu (t : Nat)
  /-- Jumps to an absolute index and writes the return index. (R161) -/
  | jal (t : Nat)
  /-- Jumps to a register-relative index and writes the return index. (R161) -/
  | jalr (t : Nat)
  /-- Floating addition rounded once, flags ORed into FSTAT. (R165) -/
  | fadd (t : Nat)
  /-- Floating subtraction rounded once. (R165) -/
  | fsub (t : Nat)
  /-- Floating multiplication rounded once. (R165) -/
  | fmul (t : Nat)
  /-- Fused multiply-add with one rounding. (R165) -/
  | ffma (t : Nat)
  /-- Fused negative multiply-add with one rounding. (R165) -/
  | ffnma (t : Nat)
  /-- Floating division as IEEE 754-2019 specifies. (R165) -/
  | fdiv (t : Nat)
  /-- Floating square root as IEEE 754-2019 specifies. (R165) -/
  | fsqrt (t : Nat)
  /-- IEEE minimum of two floating registers. (R117) -/
  | fmin (t : Nat)
  /-- IEEE maximum of two floating registers. (R117) -/
  | fmax (t : Nat)
  /-- Converts between binary32 and binary64. (R165) -/
  | fcvt (t : Nat)
  /-- Writes 1 to an integer register when the selected comparison holds. (R165) -/
  | fcmp (t : Nat)
  /-- Rounds a floating value to an s32 or u32 integer, saturating with NV. (R165) -/
  | fcvti (t : Nat)
  /-- Converts an s32 or u32 integer to a floating value. (R165) -/
  | fcvtf (t : Nat)
  /-- Moves an integer register into one half of a floating register. (R165) -/
  | fmvgf (t : Nat)
  /-- Moves one half of a floating register into an integer register. (R165) -/
  | fmvfg (t : Nat)
  /-- Issues the order descriptor at an address to the MXE, VXE or XE queue, checking the address. (R166) -/
  | iss (t : Nat) (ups : List (Nat × Bool))
  /-- A stalled ISS reads its descriptor and enters the queue once an entry has freed. (R73) -/
  | orderEnqueue (t : Nat) (ups : List (Nat × Bool))
  /-- Begins a blocking wait on a sync object as the lowest-priority waiter. (R167) -/
  | swait (t : Nat)
  /-- The count reaches the SWAIT amount; it is subtracted and SWAIT completes. (R167) -/
  | swaitSatisfied (t : Nat)
  /-- Signals a sync object at the end of its cc, saturating on overflow. (R167) -/
  | ssig (t : Nat)
  /-- Tests a sync object once and subtracts the amount if satisfied. (R167) -/
  | stry (t : Nat)
  /-- Begins waiting for an arrival counter to reach a target. (R168) -/
  | await (t : Nat)
  /-- The arrival counter reaches the target and AWAIT completes. (R168) -/
  | awaitSatisfied (t : Nat)
  /-- Tests once whether an arrival counter has reached a target. (R168) -/
  | atest (t : Nat)
  /-- Checks and copies blocks of tile memory into the instruction buffer via a staging buffer. (R169) -/
  | ifill (t : Nat) (ups : List (Nat × Bool))
  /-- Marks the tile's arrival at the next lock, samples cargo and flags, and stalls the core. (R170) -/
  | lock (t : Nat)
  /-- Stops the core before the next instruction when debugging is enabled, otherwise acts as NOP. (R180) -/
  | brk (t : Nat)
  /-- Reads the low half of a control register. (R172) -/
  | crrl (t : Nat)
  /-- Reads the high half of a control register. (R172) -/
  | crrh (t : Nat)
  /-- Writes the low half of a control register under its access codes and set-wins. (R172) -/
  | crwl (t : Nat)
  /-- Writes the high half of a control register. (R172) -/
  | crwh (t : Nat)
  /-- Reads all 64 bits of a control register into a floating register. (R172) -/
  | fcrr (t : Nat)
  /-- Writes all 64 bits of a control register from a floating register. (R172) -/
  | fcrw (t : Nat)
  /-- Reads a special register; reading CYCLE_LO latches CYCLE_HI. (R173) -/
  | srr (t : Nat)
  /-- Writes a special register such as the W1C bits of FSTAT. (R173) -/
  | srw (t : Nat)
  /-- The core reaches a breakpoint index and stops before that instruction has any effect. (R180) -/
  | breakpointStop (t : Nat)
  /-- The order at a queue head passes its header checks and its wait is satisfied, so it leaves and frees its entry. (R74) -/
  | orderLeavesHead (t e : Nat)
  /-- The pending order begins execution once its engine permits and makes its operand checks. (R74) -/
  | orderBegin (t e : Nat) (parity : Bool)
  /-- An order reaches its signal cc and its signal is applied, in queue order. (R74) -/
  | orderSignal (t e : Nat)
  /-- MXE order that applies only its wait and signal. (R135) -/
  | mxeNop (t : Nat)
  /-- Loads MXE tensor descriptors selected by MASK from a 512 B block. (R138) -/
  | mxeLdtd (t : Nat) (ups : List (Nat × Bool))
  /-- Loads a stationary B block and its scales into a B buffer. (R141) -/
  | ldb (t : Nat) (ups : List (Nat × Bool))
  /-- Streams A rows against a B buffer into accumulator rows in EXACT or F32 mode. (R142) -/
  | mma (t : Nat) (ups : List (Nat × Bool))
  /-- Writes accumulator rows to tile memory, rounded or as window partials. (R143) -/
  | drain (t : Nat)
  /-- Loads or adds binary32 values or window partials into accumulator rows. (R144) -/
  | ldacc (t : Nat) (ups : List (Nat × Bool))
  /-- Writes the MXE numeric status record and optionally clears it. (R157) -/
  | mxeStat (t : Nat)
  /-- VXE order that applies only its wait and signal. (R135) -/
  | vxeNop (t : Nat)
  /-- Loads VXE tensor descriptors from a 512 B block. (R138) -/
  | vxeLdtd (t : Nat) (ups : List (Nat × Bool))
  /-- Loads constant registers VK0 to VK15 selected by KMASK. (R148) -/
  | ldk (t : Nat) (ups : List (Nat × Bool))
  /-- Writes the VXE numeric status record and optionally clears it. (R157) -/
  | vxeStat (t : Nat)
  /-- Elementwise arithmetic, comparison, selection or conversion over R rows of N elements. (R149) -/
  | vew (t : Nat) (ups : List (Nat × Bool))
  /-- Correctly rounded transcendental, division or square-root functions. (R150) -/
  | vtr (t : Nat) (ups : List (Nat × Bool))
  /-- Reduces each row to one result, including exact window sums. (R151) -/
  | vred (t : Nat) (ups : List (Nat × Bool))
  /-- Draws one categorical index per row of scores by Gumbel-perturbed maximum. (R286) -/
  | vsample (t : Nat) (ups : List (Nat × Bool))
  /-- Writes random bits, Bernoulli masks or dropout from the counter-based generator. (R285) -/
  | vrand (t : Nat) (ups : List (Nat × Bool))
  /-- XE order that applies only its wait and signal. (R174) -/
  | xeNop (t : Nat)
  /-- Sends flits on a unicast channel. (R175) -/
  | send (t : Nat)
  /-- Sends flits on a multicast channel. (R175) -/
  | msend (t : Nat)
  /-- Sends flits as contributions on a combining channel. (R175) -/
  | comb (t : Nat)
  /-- Waits in the XE for an arrival counter to reach a target, then signals. (R177) -/
  | recv (t : Nat)
  /-- The counter reaches the RECV target and RECV completes with its signal. (R177) -/
  | recvComplete (t : Nat)
  /-- Posts a request for flits from the granule's mooring buffer, holding while four are outstanding. (R178) -/
  | pull (t : Nat)
  /-- A send order's flit enters the router's local input once its lane has credit. (R176) -/
  | flitInject (t : Nat) (env : List (Nat × Bool) × Nat)
  /-- A router output grants one candidate flit by lane and input order and forwards it. (R191) -/
  | routerForward (t o hdr : Nat) (bad : BitVec 8)
  /-- A credit freed downstream becomes usable at the upstream output. (R193) -/
  | creditReturn (t o lane : Nat)
  /-- The contributions of one combination are all at their heads and are compared and added. (R198) -/
  | combine (t ch ce : Nat)
  /-- A flit arriving from outside commits to tile memory and increments its arrival counter. (R82) -/
  | flitCommit (t ce : Nat)
  /-- The wharf takes up to two flits per cc from its granule's routers in local-index order. (R194) -/
  | wharfTakeFlit (g : Nat)
  /-- A READ command on a control channel requests source lines as RD_REQ barges. (R215) -/
  | streamRead (g : Nat)
  /-- A FENCE command waits for earlier commands and writes of its stream. (R215) -/
  | streamFence (g : Nat)
  /-- A FENCE completes and the wharf commits its completion flit. (R215) -/
  | fenceComplete (g : Nat)
  /-- A flit on a HOLD_WRITE stream becomes a whole-line WR or ACC_WR. (R216) -/
  | holdWriteFlit (g : Nat)
  /-- A flit on a PORT_OUT stream becomes one unit on its circuit. (R329) -/
  | portOutFlit (g : Nat)
  /-- A queued barge leaves its endpoint in the first slot of its owner. (R213) -/
  | bargeSend (ep dst hdr : Nat) (bad : BitVec 8)
  /-- A Hold controller accepts a read request line, opening or joining a merge entry. (R228) -/
  | rdReq (src k : Nat)
  /-- A merge entry's 256 kc window ends and it closes once data are ready. (R228) -/
  | mergeWindowEnd (k : Nat)
  /-- A Hold controller accepts a write, masked writes refusing to merge into failing lines. (R237) -/
  | wr (src k : Nat)
  /-- A Hold controller accepts an accumulating write into a gradient or increment line. (R255) -/
  | accWr (src k : Nat)
  /-- A Hold controller performs one owner access in that owner's access slot. (R226) -/
  | holdAccessSlot (k tenant err : Nat)
  /-- Patrol scrub reads lines and writes back corrected ones at least every 60 s. (R226) -/
  | patrolScrub (line err : Nat)
  /-- A read reply lands in the mooring buffer, expanded as configured, and sets PRESENT. (R220) -/
  | rdRpl (src g : Nat)
  /-- A write acknowledgement reaches the wharf and is counted for the next FENCE. (R215) -/
  | wrAck (src g : Nat)
  /-- A port-in unit lands in its stream's current section, or SECTEND advances the section. (R330) -/
  | portIn (src g : Nat)
  /-- The wharf grants a pull request whose next line is PRESENT and commits its flit. (R222) -/
  | pullGrant (g : Nat)
  /-- An HUU arrives at a lock once its work scheduled for that lock is complete. (R39) -/
  | huuArrival (c h : Nat) (waited : Bool)
  /-- An HUU updates a factor block's statistics from its increments. (R265) -/
  | factorPass (n b err : Nat)
  /-- An HUU computes and writes one update block for the step. (R268) -/
  | updateBlock (n b err : Nat)
  /-- The Lockkeeper arrives at a lock once its delayed-scaling work is complete. (R39) -/
  | lockkeeperArrival (c : Nat)
  /-- The Lockkeeper writes the new tensor scale into NM_SCALEk of every member tile. (R422) -/
  | delayedScaleWrite (c slot : Nat)
  /-- The root fires a lock at the first tick when every member has arrived and the period has passed. (R44) -/
  | lockFire (c : Nat)
  /-- The release becomes visible to a member, updating cargo, flags and index, and LOCK completes. (R70) -/
  | lockRelease (c m : Nat)
  /-- A lock not fired within the stretch limit sets OVERDUE and posts a domain event. (R53) -/
  | lockOverdue (c : Nat)
  /-- A gather marker pair arrives from a child device and is combined into the subtree. (R332) -/
  | gatherMarker (p : Nat)
  /-- A release marker arrives and is forwarded, the release becoming visible at F + R_rel. (R333) -/
  | releaseMarker (p : Nat)
  /-- Opens a mailbox session at the highest common protocol version. (R395) -/
  | hello (f : Nat)
  /-- Ends the function's session. (R395) -/
  | goodbye (f : Nat)
  /-- Configures or disables the function's event queue and writes held events. (R400) -/
  | eqConfig (f : Nat)
  /-- Returns a deferred command's result record, with REPEAT on later reads. (R392) -/
  | readResult (f : Nat)
  /-- Returns DRBG bytes, optionally with prediction resistance. (R295) -/
  | getRandom (f : Nat)
  /-- Creates a tenant: reserves resources, draws keys, zero-fills its window, writes slots and fences. (R361) -/
  | tenantSetup (f : Nat)
  /-- Returns a tenant's work to its initial state, aborting its domains and keeping its resources. (R364) -/
  | tenantReset (f : Nat)
  /-- Every unit reports nothing outstanding for the tenant; PRESENT bits clear and the reset ends. (R239) -/
  | tenantResetComplete (n : Nat) (scrub : List Nat)
  /-- Ends a tenant: destroys keys, clears its granules and returns its resources. (R365) -/
  | tenantRelease (f : Nat) (scrub : List Nat)
  /-- Basin requests still outstanding 10 ms after the abort are abandoned. (R365) -/
  | releaseBasinTimeout (n : Nat) (scrub : List Nat)
  /-- Returns a tenant block and its HWIN. (R403) -/
  | tenantQuery (f : Nat)
  /-- Sets a tenant's TEN_POLICY while it is ACTIVE with no domain running. (R377) -/
  | tenantPolicy (f : Nat)
  /-- Checks, maps, patches and writes an image into the tenant's region and assigns contexts. (R303) -/
  | load (f basinGib bound : Nat) (hw bus : Bool)
  /-- Sets and marks the generator seed of a stopped context. (R278) -/
  | seedSet (f : Nat)
  /-- Draws a context's seed from the DRBG and returns it. (R277) -/
  | seedDraw (f : Nat)
  /-- Returns a domain's update registers. (R403) -/
  | updRead (f : Nat)
  /-- Writes committed shard records of a stopped or halted domain to host memory. (R274) -/
  | exportShards (f : Nat) (bus : Bool)
  /-- Checks and writes shard records into a domain's shards, stopping at the first refusal. (R274) -/
  | importShards (f : Nat) (bus : Bool)
  /-- Re-shards a halted domain in place through validate, gather, pack and commit phases. (R276) -/
  | permute (f : Nat) (bus agree : Bool) (boxes : List (Nat × List Nat)) (others : List (Nat × Nat × Nat))
  /-- Returns a domain context's registers and stretch counters. (R403) -/
  | domainRead (f : Nat)
  /-- Writes a domain register directly, RW fields only while STOPPED. (R403) -/
  | domainWrite (f : Nat)
  /-- Starts a loaded single-device domain at lock 0. (R42) -/
  | domainStart (f : Nat)
  /-- Starts formation of a domain that spans devices. (R341) -/
  | domainForm (f : Nat)
  /-- Validates and stages a configuration set for a target lock. (R64) -/
  | domainStage (f : Nat) (bus : Bool)
  /-- Withdraws a staged set that is not yet armed. (R68) -/
  | domainWithdraw (f : Nat)
  /-- Resumes a halted domain, refiring the held release. (R58) -/
  | domainResume (f : Nat)
  /-- Aborts a domain on every member. (R58) -/
  | domainAbort (f : Nat)
  /-- Grants a domain its identifier, tree position, slots, circuits and marker pairs on the device. (R341) -/
  | domainGrant (f : Nat)
  /-- Sets the device identifier, time master and FABRIC_FMAX. (R338) -/
  | fabricConfig (f : Nat)
  /-- Applies a stored profile while every tenant is stopped. (R499) -/
  | setProfile (f : Nat)
  /-- Sets the module power cap C. (R458) -/
  | powerCap (f : Nat)
  /-- Repacks canal slot tables in the fixed order. (R358) -/
  | slotRepack (f : Nat)
  /-- Restores the entropy source's restart budget and restarts it. (R293) -/
  | entropyReset (f : Nat)
  /-- Reads registers of a named unit for the provider. (R406) -/
  | regRead (f : Nat)
  /-- Clears W1C bits of a named unit's register for the provider. (R406) -/
  | regWrite (f : Nat)
  /-- Sets DEV_POLICY.CROSS_LEND when no lending tenant is running. (R377) -/
  | setDevPolicy (f : Nat)
  /-- Returns power and thermal samples of a compute group. (R424) -/
  | telemetryComputeGroup (f : Nat)
  /-- Returns the module's coolant sample. (R424) -/
  | telemetryCoolant (f : Nat)
  /-- Returns a numerics-monitor slot summed over the region, optionally clearing it. (R424) -/
  | telemetryMonitor (f : Nat)
  /-- Returns the seven idle totals of a domain. (R424) -/
  | telemetryIdleTotals (f : Nat)
  /-- Returns a Loop stream's record and reply counts. (R424) -/
  | telemetryStream (f : Nat)
  /-- Returns summed WHF_XCNT counts of the tenant's wharves, optionally clearing them. (R424) -/
  | telemetryExpansion (f : Nat)
  /-- Opens a firmware update, clearing VALID and PENDING of the target bank. (R489) -/
  | fwBegin (f : Nat)
  /-- Writes whole 4 KiB sectors of the update image. (R490) -/
  | fwBlock (f : Nat) (bus : Option Nat)
  /-- Reads back and verifies the written image and closes the update. (R492) -/
  | fwCommit (f : Nat) (flips : List (Nat × Nat))
  /-- Reports bank states and releases. (R403) -/
  | fwStatus (f : Nat)
  /-- An open update with no command for 600 s is aborted. (R491) -/
  | fwUpdateIdleTimeout
  /-- Checks a date and sets the real-time clock valid. (R504) -/
  | timeSet (f : Nat)
  /-- Returns the date and time, or TIME_INVALID. (R506) -/
  | timeGet (f : Nat)
  /-- Returns a calibration item and its bounds. (R501) -/
  | calRead (f : Nat)
  /-- Stores a bounded user calibration delta for the next quiescent point. (R502) -/
  | calWrite (f : Nat)
  /-- Erases user deltas at the next quiescent point. (R502) -/
  | calRestoreFactory (f : Nat)
  /-- At a quiescent point pending calibration changes are applied. (R502) -/
  | calApply
  /-- Returns raw entropy bits from the capture buffer. (R290) -/
  | entropySample (f raw : Nat) (bus : Bool)
  /-- Debug read of a tile space without delaying the program. (R407) -/
  | tileRead (f : Nat) (ups : List (Nat × Bool)) (busy : Bool)
  /-- Debug write of whole words or writable fields of a tile space. (R407) -/
  | tileWrite (f : Nat) (stuck : Option Nat)
  /-- Sets a sync object's count by hand after that cc's update, returning the count replaced. (R81) -/
  | syncSet (f : Nat)
  /-- Sets a breakpoint at an instruction-buffer index. (R425) -/
  | beagleSetBreakpoint (f : Nat)
  /-- Clears a breakpoint. (R425) -/
  | beagleClearBreakpoint (f : Nat)
  /-- Stops a tile's scalar core. (R425) -/
  | beagleStop (f : Nat)
  /-- Resumes a stopped scalar core. (R425) -/
  | beagleResume (f : Nat)
  /-- Returns a core's PC, stop state, FSTAT and cycle count. (R425) -/
  | beagleQuery (f : Nat)
  /-- Schedules a HALT request at a lock index. (R425) -/
  | beagleScheduleHalt (f : Nat)
  /-- Schedules the trace start at a lock index. (R425) -/
  | beagleScheduleTrace (f : Nat)
  /-- Resumes a halted domain for n locks and halts it again. (R427) -/
  | step (f : Nat)
  /-- A write of RING submits MBX_CMD, or is dropped while BUSY. (R381) -/
  | doorbell (f val : Nat)
  /-- A write to MBX_CMD or MBX_SEQ while BUSY is dropped and sets WRITE_DROPPED. (R381) -/
  | mbxWrite (f off size val : Nat)
  /-- A write to a register with no row of its own, under its access codes and set-wins. (R13) -/
  | registerWrite (f off size val : Nat)
  /-- A command's response is written, RSP_VALID rises and BUSY falls. (R381) -/
  | commandComplete (f : Nat)
  /-- A deferred command finishes, fills its result buffer and posts RESULT_READY. (R391) -/
  | deferredCommandComplete (f slot : Nat)
  /-- An FLR of a function resets its mailbox page and session and, for a VF, causes a tenant reset. (R386) -/
  | functionLevelReset (f : Nat)
  /-- PERST or loss of the data link resets every function of the host port and clears VF Enable. (R518) -/
  | perstAssert (port : Nat) (contact : Bool)
  /-- Clearing VF Enable releases every tenant whose function disappears. (R365) -/
  | vfEnableClear (port : Nat)
  /-- A configuration request is answered with retry status until start step 4 completes. (R517) -/
  | pcieConfigRequest (port : Nat) (early : Bool) (vfs : Option Nat)
  /-- SPDM GET_VERSION request answered with version 1.2. (R368) -/
  | getVersion (f : Nat)
  /-- SPDM GET_CAPABILITIES request. (R368) -/
  | getCapabilities (f : Nat)
  /-- SPDM NEGOTIATE_ALGORITHMS request. (R368) -/
  | negotiateAlgorithms (f : Nat)
  /-- SPDM GET_DIGESTS request. (R368) -/
  | getDigests (f : Nat)
  /-- SPDM GET_CERTIFICATE request for slot 0. (R368) -/
  | getCertificate (f slot : Nat)
  /-- SPDM CHALLENGE request, failing when no nonce can be drawn. (R370) -/
  | challenge (f slot : Nat)
  /-- SPDM GET_MEASUREMENTS request returning the measurement indices. (R369) -/
  | getMeasurements (f index : Nat)
  /-- SPDM KEY_EXCHANGE, answered Busy while entropy restarts. (R370) -/
  | keyExchange (f : Nat)
  /-- SPDM FINISH request. (R368) -/
  | finish (f session : Nat)
  /-- SPDM HEARTBEAT request. (R368) -/
  | heartbeat (f session : Nat)
  /-- SPDM KEY_UPDATE request. (R368) -/
  | keyUpdate (f session : Nat)
  /-- SPDM END_SESSION request. (R368) -/
  | endSession (f session : Nat)
  /-- An MCTP control or PLDM monitoring message is answered; other types are unsupported. (R519) -/
  | mctpRequest (ty sensor : Nat) (mv : Int)
  /-- A 1,024-bit window completes its health tests and is conditioned if it passes. (R291) -/
  | entropyWindow (raw : Nat)
  /-- After 1 ms the restarted source runs its start-up tests, reaching OK, restarting or FAILED. (R293) -/
  | entropyRestartSettled (raw : Nat)
  /-- The DRBG reseeds after 65,536 requests or 1 s. (R294) -/
  | drbgReseed
  /-- A link block is accepted, or discarded with a NAK when a codeword or CRC fails. (R320) -/
  | blockReceive (p : Nat) (crc : Option Nat) (seq ack : Nat) (nak replay retrain : Bool) (time : Nat × Nat × Nat) (units : List (Nat × Nat × Nat × Nat))
  /-- Three time retrainings that fail to restore the bound make a port fault. (R339) -/
  | timeRetrainTimeout (p : Nat)
  /-- A received NAK makes the sender replay every block after ACK. (R320) -/
  | blockReplay (p : Nat)
  /-- Eight NAKs of one ACK or 100 µs without progress retrain the port from ALIGN. (R322) -/
  | ackTimeout (p : Nat)
  /-- A retraining not UP within 1 ms is a port fault. (R322) -/
  | retrainTimeout (p : Nat)
  /-- Loss of signal returns the port to SIGNAL. (R336) -/
  | lossOfSignal (p : Nat)
  /-- Per-lane equalisation completes and the port enters ALIGN. (R336) -/
  | signalDetected (p w : Nat)
  /-- Codeword, deskew and block lock complete and the port enters NEGOTIATE. (R336) -/
  | alignLock (p : Nat)
  /-- A HELLO unit sets the link version and checks wiring. (R337) -/
  | linkHello (p : Nat)
  /-- Fibre delay and time offset are measured and checked against FABRIC_FMAX. (R336) -/
  | delayMeasured (p f : Nat)
  /-- Slot and marker table CRCs agree and the port becomes UP. (R336) -/
  | tablesCheck (p peer : Nat)
  /-- A training state exceeds its bound and the port stays or falls back as stated. (R336) -/
  | trainingTimeout (p : Nat)
  /-- An owner's queued unit leaves in one of its slots when it holds a credit. (R324) -/
  | unitSend (p slot : Nat)
  /-- A CREDIT unit returns receive-queue credits to owners. (R325) -/
  | credit (p : Nat)
  /-- A DATA unit of a circuit is received and forwarded to its landing wharf, or dropped for ownership. (R324) -/
  | data (p : Nat)
  /-- A DATA_POISON unit lands with every word poisoned. (R330) -/
  | dataPoison (p : Nat)
  /-- A SECTEND unit moves its stream to the next section and clears its PRESENT bits. (R330) -/
  | sectend (p : Nat)
  /-- A unit of unused kind is dropped and counted as a CRC failure. (R316) -/
  | unknownUnit (p : Nat)
  /-- A unit of Basin messages (BACK, BRPE) is received and completes tags. (R319) -/
  | bmsg (p : Nat)
  /-- A BRP unit delivers one read line from a Basin. (R319) -/
  | brp (p : Nat)
  /-- A BRP_POISON unit delivers a poisoned Basin read line. (R319) -/
  | brpPoison (p : Nat)
  /-- A FORM unit carries a subtree's formation summary toward the root. (R341) -/
  | form (p : Nat)
  /-- A FORMED unit delivers O, R_rel, version and image value, and each member checks its proofs. (R341) -/
  | formed (p : Nat)
  /-- Formation fails with ABORTED when an edge or time bound is not met within 1 s. (R341) -/
  | formationTimeout (c : Nat)
  /-- A DIGEST unit carries replica digests to the set leader, which compares them. (R344) -/
  | digest (p : Nat)
  /-- 20 µs without signal on every port to a device declares it lost. (R349) -/
  | memberLossDetect (trunk : Nat) (relay : Bool)
  /-- A MEMBER_LOST unit aborts the domain or switches to the backup tree path. (R349) -/
  | memberLost (p : Nat) (relay : Bool)
  /-- A REPLAY_HOLD unit makes the root withhold releases. (R434) -/
  | replayHold (p : Nat)
  /-- A REPLAY_MARK unit ends discarding of the domain's circuits. (R438) -/
  | replayMark (p : Nat)
  /-- A PORT_MOVE unit makes the sender resend later blocks' units on the new port. (R445) -/
  | portMove (p : Nat)
  /-- A CM REQ connects a queue pair to a Loop stream or is rejected. (R409) -/
  | cmReq (l sid priv : Nat)
  /-- A DREQ closes a queue pair. (R409) -/
  | cmDreq (l q : Nat)
  /-- A transport error closes the queue pair. (R409) -/
  | qpTransportError (l q : Nat)
  /-- An RDMA READ, WRITE or atomic request is answered with an Invalid Request NAK. (R408) -/
  | invalidRequest (l q : Nat)
  /-- A received CNP halves the queue pair's sending rate. (R408) -/
  | cnp (l q : Nat)
  /-- The first packet of a record is judged from its header, accepted, rejected or answered with RNR. (R412) -/
  | recordFirstPacket (l q : Nat) (icrc ecn : Bool) (len data : Nat)
  /-- The last packet of a record checks its length. (R412) -/
  | recordLastPacket (l q : Nat) (icrc ecn : Bool) (len data : Nat)
  /-- After every payload line is acknowledged the slot descriptor is written FULL or REJECTED. (R413) -/
  | descriptorWrite (l q : Nat)
  /-- Flits of a REPLY stream form a reply sent as one SEND on the query's queue pair. (R416) -/
  | replyFlit (src ep : Nat)
  /-- The requester's acknowledgement of a whole reply frees the query slot. (R416) -/
  | replyAck (l q : Nat)
  /-- A lane fault narrows the port to its largest healthy width. (R444) -/
  | laneFault (p w : Nat)
  /-- A mesh link, router port or bond fault is detected on a granule side. (R431) -/
  | linkFault (t side : Nat) (lost : Bool)
  /-- After the side's buffers drain it moves to a detour path and the held lock is released. (R432) -/
  | detourSwitch (path : Nat)
  /-- After the rewind the root fires the replay release of B. (R438) -/
  | replayRelease (c : Nat)
  /-- A failed Hold stack puts its quadrant into degraded operation with update takeover. (R442) -/
  | stackFailure (k : Nat)
  /-- The quadrant's background rebuild completes. (R235) -/
  | backgroundRebuildDone (q : Nat)
  /-- A failed Basin port's tags are reissued on the new block mapping. (R446) -/
  | basinPortFail (b : Nat)
  /-- A failed Loop port closes its queue pairs and posts LOOP. (R446) -/
  | loopPortFail (l : Nat)
  /-- A core-pair lockstep mismatch warm-restarts that pair. (R447) -/
  | lockstepMismatch (pair : Nat)
  /-- Expiry of a pair's 10 ms watchdog warm-restarts that pair. (R447) -/
  | firmwareWatchdog (pair : Nat)
  /-- A warm restart ends, interrupted commands resume and LOCKKEEPER is posted. (R385) -/
  | warmRestartEnd (pair : Nat)
  /-- A rise of the effective PWR_GOOD closes the input switch and begins a start. (R476) -/
  | pwrGoodRise (profsel : Nat) (svc : Bool) (badCopies badAreas : Nat) (unusable : List Nat) (sealBad : Bool) (cellMv slotId : Nat)
  /-- The start reaches READY, posts START and pulses ATTN_N. (R479) -/
  | startReady
  /-- Expiry of the 150 s start watchdog restarts the start from step 1. (R480) -/
  | startWatchdog
  /-- A fall of the effective PWR_GOOD stops every clock except CK57 and opens the input switch. (R470) -/
  | pwrGoodFall (contacts : Nat) (service : List (Nat × List Nat))
  /-- Main current above 560 A for 100 µs opens the input switch. (R512) -/
  | mainOvercurrent
  /-- Five seconds of adequate flow and inlet readings verify flow. (R467) -/
  | flowVerified (inlet outlet flowA flowB : Int) (drop : Nat)
  /-- Loss of flow switches off every compute group. (R469) -/
  | flowLost (inlet outlet flowA flowB : Int) (drop : Nat)
  /-- Flow not verified within 5 s switches off the canal, Hold and port domains. (R469) -/
  | flowLostTimeout
  /-- Each second the effective cap is recomputed from inlet temperature and flow. (R468) -/
  | coolantDerate (inlet outlet flowA flowB : Int) (drop : Nat)
  /-- Every 100 µs the governor recomputes die steps and lending. (R460) -/
  | governorInterval (draws : List Nat) (total : Nat) (slack : List (Nat × Nat))
  /-- A compute group is switched off 10 ms after no condition holds. (R452) -/
  | computeGroupOffTimer (g : Nat)
  /-- Every 10 µs a die's sensors are sampled and its step throttled or raised. (R463) -/
  | thermalSample (d : Nat) (readings : List Int)
  /-- After 10 s a tripped group may switch on again. (R464) -/
  | tripHoldEnd (g : Nat)
  /-- A hot Hold stack halves access slots or refreshes only. (R465) -/
  | stackHot (k : Nat) (reading : Int)
  /-- A die whose engines are all gated and routers empty has its clock stopped. (R456) -/
  | dieClockStop (d : Nat)
  /-- An asynchronous wake request restarts a stopped die clock within 60 ns. (R457) -/
  | wakeRequest (d : Nat) (merged : Bool)
  /-- A management access hung for 50 µs is broken and retried or failed. (R473) -/
  | mgmtAccessWatchdog (f : Nat) (again : Bool)
  /-- The clock passing 2399-12-31 23:59:59 becomes invalid. (R506) -/
  | rtcRangeEnd
  /-- The backup cell is measured hourly and a low reading is reported. (R507) -/
  | cellMeasure (mv : Nat)
  /-- At each 1 ns tick of the time base every member tile adds 1 to exactly one idle counter chosen by its state. (R54) -/
  | timeBaseTick
  /-- An engine whose wait or empty queue lasts longer than the domain's lend threshold clock-gates its datapath. (R456) -/
  | engineClockGate (t e : Nat)
  /-- Every 1 ms the device samples each compute group and the coolant and keeps the last 64 samples. (R423) -/
  | telemetrySample (groups : List (Nat × Nat × Nat)) (inlet outlet flowA flowB : Int) (drop : Nat)
  /-- While flow is not verified at start, the device posts a COOLANT event every 10 s. (R467) -/
  | coolantNotVerified
  /-- An uncorrectable error in the Lockkeeper's SRAM firmware copy puts the Lockkeeper in FAILED. (R447) -/
  | sramCopyError
  /-- Presence or loss of the 12 V auxiliary supply switches PD00 and moves the backup domain between the auxiliary supply and VBAT, losing its contents when neither is present. (R503) -/
  | auxiliarySupply (present vbat : Bool)
  /-- A middle packet of an accepted record on a SAMPLE or QUERY queue pair is written to the ring as whole-line WR barges. (R413) -/
  | sendMiddle (l q : Nat) (icrc ecn : Bool) (len data : Nat)
  /-- An RNR NAK from the requester for a SEND of the device starts RC receiver-not-ready retry, and the send is dropped after seven retries. (R412) -/
  | rnrNak (l q : Nat)
  /-- A priority flow control pause frame received on a Loop port stops sending for every tenant on that port. (R418) -/
  | pfcPause (l quanta : Nat)
  /-- A Loop port's Ethernet link comes up and the port posts LOOP subtype 6. (R428) -/
  | loopLinkUp (l : Nat)
  deriving DecidableEq, Repr

end Sys2Proof
end

