-- ==== Sys2Proof/Decode.lean ====
section
/-! DEFINITION. Decoding of table words. No row of the opcode table gives bits: its rows are commands and events, so no
word spells one. (The 32-bit instructions of a scalar core, which its rows begin from a tile's instruction buffer, are taken
apart in Machine/TileRegs.lean and Machine/ScalarCore.lean.) -/

namespace Sys2Proof

/-- The command that a word spells by the table's bits: none, since no row of the table gives bits. [DESIGN CHOICE: log 4] -/
def decodeTableWord (_nbits _w : Nat) : Option Instr := none

end Sys2Proof
end

