-- ==== Sys2Proof/Config.lean ====
section
/-! DEFINITION. What one implementation fixes and the values the spec leaves free: constants without a body. -/

namespace Sys2Proof.Config

/-- A free value of `w` bits, fresh for each number of the model's counter of free values. [DESIGN CHOICE: log 10] -/
opaque freeBits : Nat → (w : Nat) → BitVec w

/-- Whether a fused multiply-add of zero and infinity with a quiet NaN addend raises invalid: IEEE 754-2019,
which R165 names, leaves it to the implementation. [DEDUCED: log 17] -/
opaque fmaInvalid : Bool

/-- The serial number of this device (R398). [DESIGN CHOICE: log 14] -/
opaque serial : BitVec 64
/-- The stepping of this device (R398). -/
opaque stepping : BitVec 8

/-- Factory calibration of an item (R500, R501). -/
opaque factoryCal : Nat → Int
/-- SHA-384 digests of the four vendor keys, of the firmware image as manufactured and of the boot ROM (R369, R483). -/
opaque vendorKey : Nat → BitVec 384
opaque factoryDigest : BitVec 384
opaque romDigest : BitVec 384
/-- The device identity certificate, and the alias certificate for a firmware digest, which it signs (R368).
[DESIGN CHOICE: log 178] -/
opaque identityCert : List Byte
opaque aliasCert : BitVec 384 → List Byte

/-- The XTS pair and tag key of lines that belong to no tenant (R231). [DESIGN CHOICE: log 176] -/
opaque deviceKeys : BitVec 768
/-- The 32 check bits over ciphertext, tag and stamp of a stored line: a code over 8-bit symbols that corrects two of them, which
the spec does not write out (R230). [DESIGN CHOICE: log 176] -/
opaque lineEcc : BitVec 576 → BitVec 32

end Sys2Proof.Config
end

