-- ==== Sys2Proof/Machine/Bits.lean ====
section
/-! DEFINITION. Bit fields, sign extension, byte order and finite tables: the plain arithmetic every rule rests on. -/

namespace Sys2Proof.Machine

/-- Bits [lo + w - 1 : lo] of `x` (R12: bit 0 is the least significant bit). -/
def bits (x lo w : Nat) : Nat := (x >>> lo) % 2 ^ w

/-- Bit `i` of `x` as a truth value. -/
def bit (x i : Nat) : Bool := bits x i 1 == 1

/-- 1 for true, 0 for false. -/
def b2n (b : Bool) : Nat := if b then 1 else 0

/-- `w` bits of `x` read as two's complement. -/
def sext (x w : Nat) : Int := if x % 2 ^ w < 2 ^ (w - 1) then (x % 2 ^ w : Int) else (x % 2 ^ w : Int) - 2 ^ w

/-- An integer wrapped into `w` bits. -/
def wrapInt (i : Int) (w : Nat) : Nat := (i % (2 ^ w : Int)).toNat

/-- A word built from fields (low bit, width, value), which do not overlap. -/
def pack : List (Nat × Nat × Nat) → Nat
  | [] => 0
  | (lo, w, v) :: r => (v % 2 ^ w) <<< lo + pack r

/-- `x` with bits [lo + w - 1 : lo] replaced by `v`. -/
def setBits (x lo w v : Nat) : Nat := x - (bits x lo w) <<< lo + (v % 2 ^ w) <<< lo

/-- A count that stops at its largest value. -/
def satAdd (w a b : Nat) : Nat := min (a + b) (2 ^ w - 1)

/-- Bytes [off, off + n) of a little-endian byte string held as a number (R12). -/
def fieldLE (x off n : Nat) : Nat := (x >>> (8 * off)) % 2 ^ (8 * n)

/-- A little-endian byte string from fields (offset, bytes, value). -/
def packLE : List (Nat × Nat × Nat) → Nat
  | [] => 0
  | (off, n, v) :: r => (v % 2 ^ (8 * n)) <<< (8 * off) + packLE r

/-- The `n` bytes of `x`, least significant first (R12). -/
def bytesLE : Nat → Nat → List Byte
  | 0, _ => []
  | n + 1, x => BitVec.ofNat 8 x :: bytesLE n (x / 256)

/-- The number a little-endian byte string spells (R12). -/
def ofBytesLE : List Byte → Nat
  | [] => 0
  | b :: r => b.toNat + 256 * ofBytesLE r

/-- The first offset in [lo, lo + n) of a nonzero byte of `x`. -/
def firstNonzero (x : Nat) : Nat → Nat → Option Nat
  | _, 0 => none
  | lo, n + 1 => if fieldLE x lo 1 ≠ 0 then some lo else firstNonzero x (lo + 1) n

/-- floor(log2 x), 0 for 0. -/
def log2 (x : Nat) : Nat := x.log2

/-- The least k with x ≤ 2^k. -/
def clog2 (x : Nat) : Nat := if x ≤ 1 then 0 else (x - 1).log2 + 1

/-- Ceiling division. -/
def cdiv (a b : Nat) : Nat := (a + b - 1) / b

/-- Is `a` a multiple of `n`? -/
def aligned (a n : Nat) : Bool := a % n == 0

/-! ### Finite tables: keys in strictly rising order; a key not listed holds the table's default. -/

/-- A sparse table of numbered units. -/
abbrev Tbl (α : Type) := List (Nat × α)

/-- The entry of key `k`, `d` where none is listed. -/
def Tbl.get {α : Type} (d : α) : Tbl α → Nat → α
  | [], _ => d
  | (j, v) :: r, k => if j = k then v else Tbl.get d r k

/-- The table with `v` at key `k`. -/
def Tbl.set {α : Type} : Tbl α → Nat → α → Tbl α
  | [], k, v => [(k, v)]
  | (j, w) :: r, k, v =>
    if k < j then (k, v) :: (j, w) :: r
    else if k = j then (k, v) :: r
    else (j, w) :: Tbl.set r k v

/-- The table without key `k`. -/
def Tbl.del {α : Type} (t : Tbl α) (k : Nat) : Tbl α := t.filter (fun p => p.1 ≠ k)

/-- The table with key `k` holding `v`, a value equal to the default leaving no entry. -/
def Tbl.put {α : Type} [DecidableEq α] (d : α) (t : Tbl α) (k : Nat) (v : α) : Tbl α :=
  if v = d then t.del k else t.set k v

/-- The entry of key `k`, if listed. -/
def Tbl.find {α : Type} : Tbl α → Nat → Option α
  | [], _ => none
  | (j, v) :: r, k => if j = k then some v else Tbl.find r k

/-- The first element of a list that satisfies `p`, with the elements before and after it taken out. -/
def takeFirst {α : Type} (p : α → Bool) : List α → Option (α × List α)
  | [] => none
  | a :: r => if p a then some (a, r) else (takeFirst p r).map (fun q => (q.1, a :: q.2))

/-- The list with element `i` replaced. -/
def setAt {α : Type} (l : List α) (i : Nat) (a : α) : List α := l.set i a

/-- Apply `f` to every listed entry of a table. -/
def Tbl.mapVals {α : Type} (t : Tbl α) (f : Nat → α → α) : Tbl α := t.map (fun p => (p.1, f p.1 p.2))

/-! ### Byte memories (Host.Cell): canonical, an unlisted address reads as zero. -/

/-- A byte memory: addresses strictly rising, no entry zero. -/
abbrev Mem := List Host.Cell

/-- The byte at `a`. [DESIGN CHOICE: log 3] -/
def Mem.read (m : Mem) (a : Nat) : Byte := Tbl.get 0#8 m a

/-- The memory with byte `b` at `a`; writing the value an unlisted address reads as removes the entry. -/
def Mem.write : Mem → Nat → Byte → Mem
  | [], a, b => if b = 0#8 then [] else [(a, b)]
  | (j, w) :: r, a, b =>
    if a < j then (if b = 0#8 then (j, w) :: r else (a, b) :: (j, w) :: r)
    else if a = j then (if b = 0#8 then r else (a, b) :: r)
    else (j, w) :: Mem.write r a b

/-- The canonical form of a byte memory above address `lo`. -/
def Mem.wfFrom : Nat → Mem → Bool
  | _, [] => true
  | lo, (a, b) :: r => decide (lo ≤ a) && decide (b ≠ 0#8) && Mem.wfFrom (a + 1) r

/-- The canonical form of a byte memory. -/
def Memory.wf (m : Mem) : Bool := Mem.wfFrom 0 m

/-- `n` bytes at `a` as a little-endian number (R12). -/
def Mem.readLE (m : Mem) (a : Nat) : Nat → Nat
  | 0 => 0
  | n + 1 => (Mem.read m a).toNat + 256 * Mem.readLE m (a + 1) n

/-- Writes the `n` low bytes of `x` at `a`, little-endian (R12). -/
def Mem.writeLE (m : Mem) (a : Nat) : Nat → Nat → Mem
  | 0, _ => m
  | n + 1, x => Mem.writeLE (Mem.write m a (BitVec.ofNat 8 x)) (a + 1) n (x / 256)

/-- The `n` bytes at `a` in address order. -/
def Mem.bytes (m : Mem) (a : Nat) : Nat → List Byte
  | 0 => []
  | n + 1 => Mem.read m a :: Mem.bytes m (a + 1) n

/-- Writes a byte string at `a`. -/
def Mem.writeBytes (m : Mem) (a : Nat) : List Byte → Mem
  | [] => m
  | b :: r => Mem.writeBytes (Mem.write m a b) (a + 1) r

/-- The memory with [lo, lo + n) zero. -/
def Mem.zero (m : Mem) (lo n : Nat) : Mem := m.filter (fun c => ¬ (lo ≤ c.1 ∧ c.1 < lo + n))

end Sys2Proof.Machine
end

