-- ==== Sys2Proof/Machine/Fp.lean ====
section
/-! DEFINITION. Number formats, rounding and floating operations (04_number_formats.md, R99 to R117). -/

namespace Sys2Proof.Machine

/-- A decoded value: NaN (signalling or quiet), an infinity, or (-1)^neg × m × 2^e (R101, R103). -/
inductive Fv where
  | nan (signalling : Bool)
  | inf (neg : Bool)
  | fin (neg : Bool) (m : Nat) (e : Int)
  deriving DecidableEq, Repr

/-- A number format of the table at R99. -/
structure Fmt where
  width : Nat
  mant : Nat        -- width of the stored significand (integers: width of the code)
  bias : Int
  hasInf : Bool
  hasNan : Bool
  isInt : Bool
  intExp : Int      -- exponent of an integer element under block scaling (R103)
  maxEnc : Nat      -- encoding of the largest finite value
  nanEnc : Nat      -- default NaN (R100)
  emaxEl : Int      -- R115
  deriving DecidableEq, Repr

/-- An IEEE interchange format of `eb` exponent and `mb` significand bits. -/
def ieeeFmt (eb mb : Nat) : Fmt :=
  { width := eb + mb + 1, mant := mb, bias := 2 ^ (eb - 1) - 1, hasInf := true, hasNan := true, isInt := false, intExp := 0
    maxEnc := (2 ^ eb - 1) * 2 ^ mb - 1, nanEnc := (2 ^ eb - 1) * 2 ^ mb + 2 ^ (mb - 1), emaxEl := 2 ^ (eb - 1) - 1 }

def binary64 : Fmt := ieeeFmt 11 52
def binary32 : Fmt := ieeeFmt 8 23

/-- The format of a code; the codes 0xB to 0xF name none (R99). -/
def fmtOf (code : Nat) : Option Fmt :=
  match code with
  | 0x0 => some binary64
  | 0x1 => some binary32
  | 0x2 => some (ieeeFmt 5 10)
  | 0x3 => some (ieeeFmt 8 7)
  | 0x4 => some (ieeeFmt 5 2)
  | 0x5 => some { width := 8, mant := 3, bias := 7, hasInf := false, hasNan := true, isInt := false, intExp := 0
                  maxEnc := 0x7E, nanEnc := 0x7F, emaxEl := 8 }
  | 0x6 => some { width := 6, mant := 2, bias := 3, hasInf := false, hasNan := false, isInt := false, intExp := 0
                  maxEnc := 0x1F, nanEnc := 0, emaxEl := 4 }
  | 0x7 => some { width := 6, mant := 3, bias := 1, hasInf := false, hasNan := false, isInt := false, intExp := 0
                  maxEnc := 0x1F, nanEnc := 0, emaxEl := 2 }
  | 0x8 => some { width := 4, mant := 1, bias := 1, hasInf := false, hasNan := false, isInt := false, intExp := 0
                  maxEnc := 0x7, nanEnc := 0, emaxEl := 2 }
  | 0x9 => some { width := 8, mant := 8, bias := 0, hasInf := false, hasNan := false, isInt := true, intExp := -6
                  maxEnc := 0x7F, nanEnc := 0, emaxEl := 0 }
  | 0xA => some { width := 4, mant := 4, bias := 0, hasInf := false, hasNan := false, isInt := true, intExp := -2
                  maxEnc := 0x7, nanEnc := 0, emaxEl := 0 }
  | _ => none

/-- The flags NV, DZ, OF, UF, NX as bits 0 to 4 (R113, R173). -/
def NV : Nat := 1
def DZ : Nat := 2
def OFl : Nat := 4
def UF : Nat := 8
def NX : Nat := 16

/-- The decoded value of an encoding; `s` says that block scaling is on (R100, R103). -/
def decodeFmt (f : Fmt) (s : Bool) (x : Nat) : Fv :=
  if f.isInt then
    let k := sext x f.width
    .fin (k < 0) k.natAbs (if s then f.intExp else 0)
  else
    let neg := bit x (f.width - 1)
    let mag := x % 2 ^ (f.width - 1)
    let ex := mag / 2 ^ f.mant
    let fr := mag % 2 ^ f.mant
    if mag ≤ f.maxEnc then
      if ex = 0 then .fin neg fr (1 - f.bias - f.mant) else .fin neg (2 ^ f.mant + fr) (ex - f.bias - f.mant)
    else if f.hasInf && fr == 0 then .inf neg
    else .nan (f.hasInf && fr < 2 ^ (f.mant - 1))

/-- The sign bit of a floating format. -/
def signBit (f : Fmt) (neg : Bool) : Nat := if neg then 2 ^ (f.width - 1) else 0

/-- The encoding of an infinity of a format that has them. -/
def infEnc (f : Fmt) (neg : Bool) : Nat := signBit f neg + f.maxEnc + 1

/-- An overflowed magnitude (R110). -/
def overflowEnc (f : Fmt) (neg : Bool) (rm : Nat) (sat : Bool) : Nat :=
  if sat || (!f.hasInf && !f.hasNan) then signBit f neg + f.maxEnc
  else if rm = 0 || rm = 4 || (rm = 2 && !neg) || (rm = 3 && neg) then
    (if f.hasInf then infEnc f neg else f.nanEnc)
  else signBit f neg + f.maxEnc

/-- Does R109 round away from the truncated magnitude `t`, the discarded fraction being rem / den? -/
def roundUp (rm : Nat) (neg : Bool) (t rem den u : Nat) : Bool :=
  match rm with
  | 0 => decide (den < 2 * rem) || (2 * rem == den && t % 2 == 1)
  | 1 => false
  | 2 => decide (0 < rem) && !neg
  | 3 => decide (0 < rem) && neg
  | _ => decide (u < rem * 2 ^ 32 / den)

/-- m × 2^e over the quantum 2^q: the truncated multiple, the remainder and its denominator. -/
def splitQ (m : Nat) (e q : Int) : Nat × Nat × Nat :=
  if q ≤ e then (m <<< (e - q).toNat, 0, 1)
  else let k := (q - e).toNat; (m >>> k, m % 2 ^ k, 2 ^ k)

/-- R109: a finite exact value rounded into a floating format, with the flags it sets. -/
def roundTo (f : Fmt) (rm : Nat) (sat : Bool) (u : Nat) (neg : Bool) (m : Nat) (e : Int) : Nat × Nat :=
  if m = 0 then (signBit f neg, 0)
  else
    let emin := 1 - f.bias
    let ex := max (e + m.log2) emin
    let (t, rem, den) := splitQ m e (ex - f.mant)
    let r := if roundUp rm neg t rem den u then t + 1 else t
    let enc := (ex - emin).toNat * 2 ^ f.mant + r
    if f.maxEnc < enc then (overflowEnc f neg rm sat, OFl ||| NX)
    else (signBit f neg + enc, if rem = 0 then 0 else NX ||| (if enc < 2 ^ f.mant then UF else 0))

/-- A finite value rounded to an integer, and whether that was inexact (R111: quantum 1, precision unbounded). -/
def roundInt (rm u : Nat) (neg : Bool) (m : Nat) (e : Int) : Int × Bool :=
  let (t, rem, den) := splitQ m e 0
  let r := if roundUp rm neg t rem den u then t + 1 else t
  (if neg then -(r : Int) else r, rem ≠ 0)

/-- R111: into an integer range, out of range taking the nearer bound with NV alone. -/
def toIntRange (lo hi : Int) (rm u : Nat) (v : Fv) : Int × Nat :=
  match v with
  | .nan _ => (0, NV)
  | .inf neg => (if neg then lo else hi, NV)
  | .fin neg m e =>
    let (i, nx) := roundInt rm u neg m e
    if i < lo then (lo, NV) else if hi < i then (hi, NV) else (i, if nx then NX else 0)

/-- A value multiplied by 2^k (scales never round, R105, R107). -/
def Fv.scale (k : Int) : Fv → Fv
  | .fin n m e => .fin n m (e + k)
  | v => v

/-- R114: a decoded value converted into format `f`, with the flags it sets. -/
def convert (f : Fmt) (rm : Nat) (sat : Bool) (u : Nat) (v : Fv) : Nat × Nat :=
  if f.isInt then
    let h : Int := 2 ^ (f.width - 1)
    let (i, fl) := toIntRange (-h) (h - 1) rm u v
    (wrapInt i f.width, fl)
  else match v with
    | .nan sg => if f.hasNan then (f.nanEnc, if sg then NV else 0) else (0, NV)
    | .inf neg =>
      if sat then (signBit f neg + f.maxEnc, NV)
      else if f.hasInf then (infEnc f neg, 0)
      else if f.hasNan then (f.nanEnc, NV)
      else (signBit f neg + f.maxEnc, NV)
    | .fin neg m e => roundTo f rm sat u neg m e

/-- Is the value a NaN? -/
def Fv.isNan : Fv → Bool
  | .nan _ => true
  | _ => false

/-- Is the value a signalling NaN? -/
def Fv.isSnan : Fv → Bool
  | .nan s => s
  | _ => false

/-- The sign of a value that is no NaN. -/
def Fv.sign : Fv → Bool
  | .inf n => n
  | .fin n _ _ => n
  | .nan _ => false

/-- Is the value a zero of either sign? -/
def Fv.isZero : Fv → Bool
  | .fin _ m _ => m == 0
  | _ => false

/-- The value with its sign replaced; a NaN is the quiet one. -/
def Fv.withSign (n : Bool) : Fv → Fv
  | .nan _ => .nan false
  | .inf _ => .inf n
  | .fin _ m e => .fin n m e

/-- NV where an operand is a signalling NaN (R101). -/
def snanFlag (l : List Fv) : Nat := if l.any Fv.isSnan then NV else 0

/-- The signed numerator of a finite value over 2^lo. -/
def numAt (neg : Bool) (m : Nat) (e lo : Int) : Int :=
  let k : Int := (m <<< (e - lo).toNat : Nat)
  if neg then -k else k

/-- The exact sum of two values; an exact zero from unlike signs is +0, under RDN −0 (R116). -/
def fvAdd (rm : Nat) (a b : Fv) : Fv × Nat :=
  match a, b with
  | .nan _, _ => (.nan false, snanFlag [a, b])
  | _, .nan _ => (.nan false, snanFlag [a, b])
  | .inf x, .inf y => if x = y then (.inf x, 0) else (.nan false, NV)
  | .inf x, .fin _ _ _ => (.inf x, 0)
  | .fin _ _ _, .inf y => (.inf y, 0)
  | .fin x m d, .fin y n e =>
    let lo := min d e
    let t := numAt x m d lo + numAt y n e lo
    if t = 0 then (.fin (if x = y then x else decide (rm = 3)) 0 0, 0) else (.fin (decide (t < 0)) t.natAbs lo, 0)

/-- The exact product. -/
def fvMul (a b : Fv) : Fv × Nat :=
  match a, b with
  | .nan _, _ => (.nan false, snanFlag [a, b])
  | _, .nan _ => (.nan false, snanFlag [a, b])
  | .inf x, v => if v.isZero then (.nan false, NV) else (.inf (x != v.sign), 0)
  | v, .inf y => if v.isZero then (.nan false, NV) else (.inf (y != v.sign), 0)
  | .fin x m d, .fin y n e => (.fin (x != y) (m * n) (d + e), 0)

/-- The exact a × b + c (R165, R149). -/
def fvFma (rm : Nat) (a b c : Fv) : Fv × Nat :=
  let (p, fp) := fvMul a b
  if a.isNan || b.isNan then (.nan false, snanFlag [a, b, c])
  else if p.isNan then
    (.nan false, if c.isNan && !c.isSnan then (if Config.fmaInvalid then NV else 0) else NV)
  else
    let (r, fs) := fvAdd rm p c
    (r, fp ||| fs)

/-- floor(sqrt n) of n < 4^k, bit by bit from the top. -/
def isqrtAux (n : Nat) : Nat → Nat → Nat
  | 0, r => r
  | k + 1, r => let r' := r + 2 ^ k; isqrtAux n k (if r' * r' ≤ n then r' else r)

/-- floor(sqrt n). -/
def isqrt (n : Nat) : Nat := isqrtAux n (n.log2 / 2 + 1) 0

/-- Bits of quotient or root kept below the significand, ahead of the sticky bit. -/
def guardBits : Nat := 140

/-- A quotient kept to more bits than any format holds, its last bit set when something was cut off. -/
def fvDiv (a b : Fv) : Fv × Nat :=
  match a, b with
  | .nan _, _ => (.nan false, snanFlag [a, b])
  | _, .nan _ => (.nan false, snanFlag [a, b])
  | .inf x, v => match v with
    | .inf _ => (.nan false, NV)
    | _ => (.inf (x != v.sign), 0)
  | .fin x _ _, .inf y => (.fin (x != y) 0 0, 0)
  | .fin x m d, .fin y n e =>
    if n = 0 then (if m = 0 then (.nan false, NV) else (.inf (x != y), DZ))
    else
      let k := guardBits + n.log2
      let num := m <<< k
      (.fin (x != y) (2 * (num / n) + (if num % n = 0 then 0 else 1)) (d - e - k - 1), 0)

/-- A square root kept to more bits than any format holds, with a sticky last bit. -/
def fvSqrt (a : Fv) : Fv × Nat :=
  match a with
  | .nan s => (.nan false, if s then NV else 0)
  | .inf n => if n then (.nan false, NV) else (.inf false, 0)
  | .fin n m e =>
    if m = 0 then (a, 0)
    else if n then (.nan false, NV)
    else
      let k := 2 * guardBits + (e % 2).toNat
      let x := m <<< k
      let r := isqrt x
      (.fin false (2 * r + (if r * r = x then 0 else 1)) ((e - k) / 2 - 1), 0)

/-- The reciprocal square root, likewise. -/
def fvRsqrt (a : Fv) : Fv × Nat :=
  match a with
  | .nan s => (.nan false, if s then NV else 0)
  | .inf n => if n then (.nan false, NV) else (.fin false 0 0, 0)
  | .fin n m e =>
    if m = 0 then (.inf n, DZ)
    else if n then (.nan false, NV)
    else
      let m' := m <<< (e % 2).toNat
      let e' := e - e % 2
      let k := guardBits + m'.log2
      let r := isqrt (2 ^ (2 * k) / m')
      (.fin false (2 * r + (if r * r * m' = 2 ^ (2 * k) then 0 else 1)) (-k - e' / 2 - 1), 0)

/-- The order of two values that are no NaN; ±0 are equal (R117). -/
def fvLt (a b : Fv) : Bool :=
  match a, b with
  | .inf x, .inf y => x && !y
  | .inf x, _ => x
  | _, .inf y => !y
  | .fin x m d, .fin y n e => let lo := min d e; decide (numAt x m d lo < numAt y n e lo)
  | _, _ => false

def fvEq (a b : Fv) : Bool := !a.isNan && !b.isNan && !fvLt a b && !fvLt b a

/-- minimum (`mx` false) and maximum (`mx` true) of R117: NaN wins, −0 below +0. -/
def fvMinMax (mx : Bool) (a b : Fv) : Fv × Nat :=
  if a.isNan || b.isNan then (.nan false, snanFlag [a, b])
  else
    let lt := fvLt a b || (a.isZero && b.isZero && a.sign && !b.sign)
    (if lt != mx then a else b, 0)

/-- A comparison (0 equal, 1 less, 2 less or equal, 3 unordered), quiet (R117). -/
def fvCmp (rel : Nat) (a b : Fv) : Bool × Nat :=
  let un := a.isNan || b.isNan
  let r := match rel with
    | 0 => fvEq a b
    | 1 => !un && fvLt a b
    | 2 => !un && !fvLt b a
    | _ => un
  (r, snanFlag [a, b])

/-- The result of an operation encoded in its format: NaN and infinities as they stand, the rest rounded once (R109). -/
def finish (f : Fmt) (rm : Nat) (sat : Bool) (r : Fv × Nat) : Nat × Nat :=
  match r.1 with
  | .nan _ => (f.nanEnc, r.2)
  | .inf n => (infEnc f n, r.2)
  | .fin n m e => let (x, fl) := roundTo f rm sat 0 n m e; (x, fl ||| r.2)

/-- Bytes of one element of a format, in eighths. -/
def elemBits (f : Fmt) : Nat := f.width

end Sys2Proof.Machine
end

