-- ==== Sys2Proof/Machine/Gen.lean ====
section
/-! DEFINITION. The counter-based generator and the digest mixer (R280, R271), CRC-32C (R65). -/

namespace Sys2Proof.Machine

/-- x rotated left by n bits in 64 (R280). -/
def rotl64 (x n : Nat) : Nat := (x <<< n % 2 ^ 64) ||| (x >>> (64 - n))

/-- One round of gen32 on (a, b) (R280). -/
def genRound (k0 k1 : Nat) (ab : Nat × Nat) (r : Nat) : Nat × Nat :=
  let a := (ab.1 + rotl64 ab.2 23 + (r + 1) * 0x9C417E35D2A85B63) % 2 ^ 64
  let a := (a * 0xD6E8FEB86659FD93) % 2 ^ 64
  let a := a ^^^ (a >>> 32)
  (a, ab.2 ^^^ rotl64 a 17 ^^^ (if r % 2 = 0 then k0 else k1))

/-- gen32 of R280. -/
def gen32 (k0 k1 stream sub pos : Nat) : Nat :=
  let b := (stream % 2 ^ 32 * 2 ^ 32 + sub % 2 ^ 32) ^^^ k1
  let (a, b) := (List.range 6).foldl (genRound k0 k1) (pos % 2 ^ 64 ^^^ k0, b)
  ((a + b) % 2 ^ 64) >>> 32

/-- mix64 of R271. -/
def mix64 (x : Nat) : Nat :=
  let x := ((x ^^^ (x >>> 31)) * 0x8F3A61C52D7BE4A9) % 2 ^ 64
  let x := ((x ^^^ (x >>> 29)) * 0xB7D01E6F93C45A2B) % 2 ^ 64
  x ^^^ (x >>> 32)

/-- One bit of the reflected CRC-32C register. -/
def crcBit (c : Nat) : Nat := if c % 2 = 1 then (c >>> 1) ^^^ 0x82F63B78 else c >>> 1

/-- CRC-32C register after one byte. -/
def crcByte (c : Nat) (b : Byte) : Nat := crcBit (crcBit (crcBit (crcBit (crcBit (crcBit (crcBit (crcBit (c ^^^ b.toNat))))))))

/-- CRC-32C register after a list of bytes; the match makes each byte's register a numeral before the next byte. -/
def crcBytes : Nat → List Byte → Nat
  | c, [] => c
  | c, b :: l => match crcByte c b with
    | 0 => crcBytes 0 l
    | n + 1 => crcBytes (n + 1) l

/-- CRC-32C: Castagnoli polynomial, initial value 0xFFFF_FFFF, final complement (R65). -/
def crc32c (l : List Byte) : Nat := crcBytes 0xFFFFFFFF l ^^^ 0xFFFFFFFF

end Sys2Proof.Machine
end

