-- ==== Sys2Proof/Machine/Crypto.lean ====
section
/-! DEFINITION. SHA-384 (FIPS 180-4), AES-256 (FIPS 197), XTS-AES-256 (IEEE 1619), AES-CMAC (NIST SP 800-38B) and CTR_DRBG with
the derivation function (NIST SP 800-90A), which R231, R232, R292, R294 and R306 name. -/

namespace Sys2Proof.Machine

/-! ### SHA-384 -/

/-- The first `n` primes above those in `l` (descending), looking at numbers from `k` on, as long as `fuel` lasts. -/
def primesFrom : Nat → Nat → List Nat → List Nat
  | 0, _, l => l
  | fuel + 1, k, l => primesFrom fuel (k + 1) (if l.all (fun p => k % p != 0) then k :: l else l)

/-- The first 80 primes, 2 to 409. -/
def shaPrimes : List Nat := (primesFrom 408 2 []).reverse

/-- The integer part of the `k`-th root of `n`, by Newton's iteration from a start `x` above it. -/
def rootDown (k n : Nat) : Nat → Nat → Nat
  | 0, x => x
  | fuel + 1, x =>
    let y := ((k - 1) * x + n / x ^ (k - 1)) / k
    if y < x then rootDown k n fuel y else x

/-- The first 64 bits of the fractional part of the `k`-th root of a prime below 512. -/
def rootFraction (k p : Nat) : Nat := rootDown k (p * 2 ^ (64 * k)) 64 (2 ^ 69) % 2 ^ 64

/-- Round constants of SHA-384: the fractions of the cube roots of the first 80 primes (FIPS 180-4, 4.2.3). -/
def shaK : List Nat := shaPrimes.map (rootFraction 3)
/-- Initial hash value of SHA-384: the fractions of the square roots of primes 9 to 16 (FIPS 180-4, 5.3.4). -/
def shaH0 : List Nat := ((shaPrimes.drop 8).take 8).map (rootFraction 2)

/-- x rotated right by n bits in 64. -/
def rotr64 (x n : Nat) : Nat := (x >>> n) ||| ((x <<< (64 - n)) % 2 ^ 64)

def shaS0 (x : Nat) : Nat := rotr64 x 28 ^^^ rotr64 x 34 ^^^ rotr64 x 39
def shaS1 (x : Nat) : Nat := rotr64 x 14 ^^^ rotr64 x 18 ^^^ rotr64 x 41
def shaG0 (x : Nat) : Nat := rotr64 x 1 ^^^ rotr64 x 8 ^^^ (x >>> 7)
def shaG1 (x : Nat) : Nat := rotr64 x 19 ^^^ rotr64 x 61 ^^^ (x >>> 6)
def shaCh (x y z : Nat) : Nat := (x &&& y) ^^^ ((2 ^ 64 - 1 - x) &&& z)
def shaMaj (x y z : Nat) : Nat := (x &&& y) ^^^ (x &&& z) ^^^ (y &&& z)

/-- One round: message word `w`, constant `k`, over the eight working variables. -/
def shaRound (v : List Nat) (kw : Nat × Nat) : List Nat :=
  match v with
  | [a, b, c, d, e, f, g, h] =>
    let t1 := h + shaS1 e + shaCh e f g + kw.1 + kw.2
    let t2 := shaS0 a + shaMaj a b c
    [(t1 + t2) % 2 ^ 64, a, b, c, (d + t1) % 2 ^ 64, e, f, g]
  | _ => v

/-- The message schedule, newest word first, grown by `n` words. -/
def shaGrow : Nat → List Nat → List Nat
  | 0, w => w
  | n + 1, w => shaGrow n ((shaG1 (w.getD 1 0) + w.getD 6 0 + shaG0 (w.getD 14 0) + w.getD 15 0) % 2 ^ 64 :: w)

/-- A big-endian number from bytes. -/
def ofBytesBE (l : List Byte) : Nat := l.foldl (fun x b => x * 256 + b.toNat) 0
/-- The `n` bytes of a number, most significant first. -/
def bytesBE (n x : Nat) : List Byte := (bytesLE n x).reverse

/-- One block of 128 bytes. -/
def shaBlock (h : List Nat) (blk : List Byte) : List Nat :=
  let m := (List.range 16).map (fun i => ofBytesBE ((blk.drop (8 * i)).take 8))
  let w := (shaGrow 64 m.reverse).reverse
  ((shaK.zip w).foldl shaRound h).zipWith (fun x y => (x + y) % 2 ^ 64) h

/-- The first `n` blocks of a padded message. -/
def shaBlocks : Nat → List Nat → List Byte → List Nat
  | 0, h, _ => h
  | n + 1, h, l => shaBlocks n (shaBlock h (l.take 128)) (l.drop 128)

/-- SHA-384: the 48 bytes of the digest, in order. -/
def sha384 (msg : List Byte) : List Byte :=
  let n := msg.length
  let z := (240 - (n + 1) % 128) % 128
  let padded := msg ++ [0x80#8] ++ List.replicate z 0#8 ++ bytesBE 16 (8 * n)
  ((shaBlocks (padded.length / 128) shaH0 padded).take 6).flatMap (bytesBE 8)

/-! ### AES-256 -/

/-- Multiplication by x in GF(2^8). -/
def xtime (a : Nat) : Nat := if a < 128 then 2 * a else (2 * a ^^^ 0x11B) % 256

/-- Multiplication in GF(2^8): the low `n` bits of `b`. -/
def gfMul : Nat → Nat → Nat → Nat
  | 0, _, _ => 0
  | n + 1, a, b => (if b % 2 = 1 then a else 0) ^^^ gfMul n (xtime a) (b / 2)

/-- a^254, the inverse in GF(2^8). -/
def gfInv (a : Nat) : Nat :=
  let m := gfMul 8
  let a2 := m a a
  let a4 := m a2 a2
  let a8 := m a4 a4
  let a16 := m a8 a8
  let a32 := m a16 a16
  let a64 := m a32 a32
  let a128 := m a64 a64
  m a128 (m a64 (m a32 (m a16 (m a8 (m a4 a2)))))

def rotl8 (x n : Nat) : Nat := (x <<< n) % 256 ||| (x >>> (8 - n))

/-- The S-box. -/
def aesSub (a : Nat) : Nat :=
  let b := gfInv a
  b ^^^ rotl8 b 1 ^^^ rotl8 b 2 ^^^ rotl8 b 3 ^^^ rotl8 b 4 ^^^ 0x63

/-- The key schedule of AES-256: 4-byte words, newest first, grown to `i` further words; `rcon` of the next. -/
def aesExpand : Nat → Nat → Nat → List (List Nat) → List (List Nat)
  | 0, _, _, w => w
  | n + 1, i, rcon, w =>
    let prev := w.headD []
    let back := w.getD 7 []
    let t := if i % 8 = 0 then
        match prev with
        | [a, b, c, d] => [aesSub b ^^^ rcon, aesSub c, aesSub d, aesSub a]
        | l => l
      else if i % 8 = 4 then prev.map aesSub else prev
    aesExpand n (i + 1) (if i % 8 = 0 then xtime rcon else rcon) (List.zipWith (· ^^^ ·) back t :: w)

/-- The 15 round keys of 16 bytes. -/
def aesKeys (key : List Nat) : List (List Nat) :=
  let w0 := (List.range 8).map (fun i => (key.drop (4 * i)).take 4)
  let w := (aesExpand 52 8 1 w0.reverse).reverse
  (List.range 15).map (fun r => ((w.drop (4 * r)).take 4).flatten)

/-- ShiftRows on 16 bytes in column order. -/
def aesShift (s : List Nat) : List Nat :=
  (List.range 16).map (fun i => s.getD ((i % 4 + 4 * ((i / 4 + i % 4) % 4))) 0)

/-- MixColumns on one column. -/
def aesMixCol (c : List Nat) : List Nat :=
  (List.range 4).map (fun r => xtime (c.getD r 0) ^^^ (xtime (c.getD ((r + 1) % 4) 0) ^^^ c.getD ((r + 1) % 4) 0)
    ^^^ c.getD ((r + 2) % 4) 0 ^^^ c.getD ((r + 3) % 4) 0)

def aesMix (s : List Nat) : List Nat := (List.range 4).flatMap (fun c => aesMixCol ((s.drop (4 * c)).take 4))

/-- One AES-256 encryption of 16 bytes. -/
def aes256 (key block : List Nat) : List Nat :=
  let ks := aesKeys key
  let x (s k : List Nat) := List.zipWith (· ^^^ ·) s k
  let s := x block (ks.headD [])
  let s := ((ks.drop 1).take 13).foldl (fun s k => x (aesMix (aesShift (s.map aesSub))) k) s
  x (aesShift (s.map aesSub)) (ks.getD 14 [])

/-- The inverse S-box. -/
def aesUnsub (a : Nat) : Nat := gfInv (rotl8 a 1 ^^^ rotl8 a 3 ^^^ rotl8 a 6 ^^^ 0x05)

/-- The inverse of ShiftRows. -/
def aesUnshift (s : List Nat) : List Nat :=
  (List.range 16).map (fun i => s.getD (i % 4 + 4 * ((i / 4 + 4 - i % 4) % 4)) 0)

/-- The inverse of MixColumns. -/
def aesUnmix (s : List Nat) : List Nat :=
  (List.range 16).map (fun i =>
    let x (r : Nat) : Nat := s.getD (i / 4 * 4 + (i % 4 + r) % 4) 0
    gfMul 4 (x 0) 14 ^^^ gfMul 4 (x 1) 11 ^^^ gfMul 4 (x 2) 13 ^^^ gfMul 4 (x 3) 9)

def natBytes (n x : Nat) : List Nat := (bytesBE n x).map BitVec.toNat
def ofNatBytes (l : List Nat) : Nat := l.foldl (fun x b => x * 256 + b) 0

def xorBytes (a b : List Nat) : List Nat := List.zipWith (· ^^^ ·) a b

/-- One AES-256 decryption of 16 bytes. -/
def aes256Inv (key block : List Nat) : List Nat :=
  let ks := (aesKeys key).reverse
  let s := (aesUnshift (xorBytes block (ks.headD []))).map aesUnsub
  let s := ((ks.drop 1).take 13).foldl (fun s k => (aesUnshift (aesUnmix (xorBytes s k))).map aesUnsub) s
  xorBytes s (ks.getD 14 [])

/-! ### XTS-AES-256 (IEEE 1619) and AES-CMAC (NIST SP 800-38B), which R231 and R232 name -/

/-- The tweak of the next block: multiplication by α in GF(2^128), the first byte the least significant. -/
def xtsNext (t : Nat) : Nat := (2 * t) % 2 ^ 128 ^^^ (if t < 2 ^ 127 then 0 else 0x87)

/-- The tweaks of `n` blocks, from one on. -/
def xtsTweaks : Nat → Nat → List Nat
  | 0, _ => []
  | n + 1, t => t :: xtsTweaks n (xtsNext t)

/-- The bytes of a number, least significant first. -/
def natBytesLE (n x : Nat) : List Nat := (bytesLE n x).map BitVec.toNat

/-- A data unit of whole blocks under XTS: `f` is the block cipher of the first key, `key2` the tweak key, `unit` the data unit
sequence number. -/
def xtsUnit (f : List Nat → List Nat) (key2 : List Nat) (unit : Nat) (data : List Nat) : List Nat :=
  let n := data.length / 16
  let t0 := ((aes256 key2 (natBytesLE 16 unit)).reverse).foldl (fun x b => x * 256 + b) 0
  ((xtsTweaks n t0).zip (List.range n)).flatMap (fun x =>
    let t := natBytesLE 16 x.1
    xorBytes (f (xorBytes ((data.drop (16 * x.2)).take 16) t)) t)

def xtsEncrypt (key1 key2 : List Nat) (unit : Nat) (data : List Nat) : List Nat := xtsUnit (aes256 key1) key2 unit data
def xtsDecrypt (key1 key2 : List Nat) (unit : Nat) (data : List Nat) : List Nat := xtsUnit (aes256Inv key1) key2 unit data

/-- A subkey of CMAC from the one before: a doubling, the first byte the most significant. -/
def cmacDouble (l : List Nat) : List Nat :=
  let x := ofNatBytes l
  natBytes 16 ((2 * x) % 2 ^ 128 ^^^ (if x < 2 ^ 127 then 0 else 0x87))

/-- AES-CMAC with a 256-bit key: the 16 bytes of the tag. -/
def aesCmac (key msg : List Nat) : List Nat :=
  let k1 := cmacDouble (aes256 key (List.replicate 16 0))
  let n := (msg.length - 1) / 16
  let last := msg.drop (16 * n)
  let last := if last.length = 16 then xorBytes last k1
    else xorBytes (last ++ 0x80 :: List.replicate (15 - last.length) 0) (cmacDouble k1)
  let chain := (List.range n).foldl (fun c i => aes256 key (xorBytes c ((msg.drop (16 * i)).take 16))) (List.replicate 16 0)
  aes256 key (xorBytes chain last)

/-! ### CTR_DRBG with AES-256 and the derivation function -/

/-- The working state: key and counter V, as big-endian numbers. -/
structure Drbg where
  key : BitVec 256 := 0
  v : BitVec 128 := 0
  deriving DecidableEq, Repr


/-- `n` blocks of the counter stream after V. -/
def ctrBlocks (key : List Nat) (v : Nat) : Nat → List Nat
  | 0 => []
  | n + 1 => aes256 key (natBytes 16 ((v + 1) % 2 ^ 128)) ++ ctrBlocks key (v + 1) n

/-- CTR_DRBG_Update with 48 bytes of data. -/
def Drbg.update (d : Drbg) (data : List Nat) : Drbg :=
  let t := List.zipWith (· ^^^ ·) (ctrBlocks (natBytes 32 d.key.toNat) d.v.toNat 3) data
  { key := BitVec.ofNat 256 (ofNatBytes (t.take 32)), v := BitVec.ofNat 128 (ofNatBytes (t.drop 32)) }

/-- BCC: cipher block chaining over 16-byte blocks. -/
def bcc (key : List Nat) : Nat → List Nat → List Nat → List Nat
  | 0, chain, _ => chain
  | n + 1, chain, l => bcc key n (aes256 key (List.zipWith (· ^^^ ·) chain (l.take 16))) (l.drop 16)

/-- The encryptions x, E(x), E(E(x)), … after `x`, `n` of them joined. -/
def chainBlocks (key : List Nat) (x : List Nat) : Nat → List Nat
  | 0 => []
  | n + 1 => let y := aes256 key x; y ++ chainBlocks key y n

/-- Block_Cipher_df to 48 bytes. -/
def blockDf (input : List Nat) : List Nat :=
  let s0 := natBytes 4 input.length ++ natBytes 4 48 ++ input ++ [0x80]
  let s := s0 ++ List.replicate ((16 - s0.length % 16) % 16) 0
  let k0 := List.range 32
  let piece (i : Nat) : List Nat :=
    let iv := natBytes 4 i ++ List.replicate 12 0 ++ s
    bcc k0 (iv.length / 16) (List.replicate 16 0) iv
  let t := piece 0 ++ piece 1 ++ piece 2
  chainBlocks (t.take 32) ((t.drop 32).take 16) 3

/-- Instantiate from entropy input, nonce and personalisation string. -/
def Drbg.instantiate (entropy nonce pers : List Nat) : Drbg := ({} : Drbg).update (blockDf (entropy ++ nonce ++ pers))

/-- Reseed with an entropy input. -/
def Drbg.reseed (d : Drbg) (entropy : List Nat) : Drbg := d.update (blockDf entropy)

/-- One generate request of `n` bytes: the new state and the bytes. -/
def Drbg.generate (d : Drbg) (n : Nat) : Drbg × List Nat :=
  let out := ctrBlocks (natBytes 32 d.key.toNat) d.v.toNat (cdiv n 16)
  let d' : Drbg := { d with v := d.v + BitVec.ofNat 128 (cdiv n 16) }
  (d'.update (List.replicate 48 0), out.take n)

/-! ### ECDSA with NIST P-384 (R368, R483) -/

def p384P : Nat := 2 ^ 384 - 2 ^ 128 - 2 ^ 96 + 2 ^ 32 - 1
def p384N : Nat := 0xffffffffffffffffffffffffffffffffffffffffffffffffc7634d81f4372ddf581a0db248b0a77aecec196accc52973
def p384B : Nat := 0xb3312fa7e23ee7e4988e056be3f82d19181d9c6efe8141120314088f5013875ac656398d8a2ed19d2a85c8edd3ec2aef
def p384Gx : Nat := 0xaa87ca22be8b05378eb1c71ef320ad746e1d3b628ba79b9859f741e082542a385502f25dbf55296c3a545e3872760ab7
def p384Gy : Nat := 0x3617de4a96262c6f5d9e98bf9292dc29f8f41dbd289a147ce9da3113b5f0b8c00a60b1ce1d7e819d7a431d7c90ea0e5f

/-- The bits of a 384-bit number, most significant first. -/
def bits384 (x : Nat) : List Bool := (List.range 384).map (fun i => (x >>> (383 - i)) % 2 == 1)

/-- b to the e modulo m, for e below 2^384. -/
def powMod (b e m : Nat) : Nat := (bits384 e).foldl (fun x bit => let y := x * x % m; if bit then y * b % m else y) 1

/-- The inverse of `x` modulo a prime `m`. -/
def invMod (x m : Nat) : Nat := powMod x (m - 2) m

/-- A point in Jacobian coordinates; Z = 0 is the point at infinity. -/
abbrev EcPoint := Nat × Nat × Nat

def ecDouble (a : EcPoint) : EcPoint :=
  let p := p384P
  let (x, y, z) := a
  if z = 0 ∨ y = 0 then (1, 1, 0)
  else
    let zz := z * z % p
    let s := 4 * x * (y * y % p) % p
    let m := 3 * ((x + zz) * (x + p - zz) % p) % p
    let x3 := (m * m + 2 * (p - s)) % p
    (x3, (m * ((s + p - x3) % p) + p - 8 * (y * y % p) * (y * y % p) % p) % p, 2 * y * z % p)

def ecAdd (a b : EcPoint) : EcPoint :=
  let p := p384P
  let (x1, y1, z1) := a
  let (x2, y2, z2) := b
  if z1 = 0 then b
  else if z2 = 0 then a
  else
    let u1 := x1 * (z2 * z2 % p) % p
    let u2 := x2 * (z1 * z1 % p) % p
    let s1 := y1 * (z2 * z2 % p * z2 % p) % p
    let s2 := y2 * (z1 * z1 % p * z1 % p) % p
    if u1 = u2 then (if s1 = s2 then ecDouble a else (1, 1, 0))
    else
      let h := (u2 + p - u1) % p
      let r := (s2 + p - s1) % p
      let hh := h * h % p
      let v := u1 * hh % p
      let x3 := (r * r + (p - h * hh % p) + 2 * (p - v)) % p
      (x3, (r * ((v + p - x3) % p) + p - s1 * (h * hh % p) % p) % p, h * (z1 * z2 % p) % p)

/-- `k` times a point. -/
def ecMul (k : Nat) (a : EcPoint) : EcPoint :=
  (bits384 k).foldl (fun q bit => let q := ecDouble q; if bit then ecAdd q a else q) (1, 1, 0)

/-- Does (r, s) sign the 384-bit hash `z` under the public key (x, y)? -/
def ecdsaOk (z r s x y : Nat) : Bool :=
  let p := p384P
  let n := p384N
  let onCurve := y * y % p == (x * x % p * x + 3 * (p - x) + p384B) % p
  if decide (p ≤ x) || decide (p ≤ y) || !onCurve || r == 0 || s == 0 || decide (n ≤ r) || decide (n ≤ s) then false
  else
    let w := invMod s n
    let q := ecAdd (ecMul (z * w % n) (p384Gx, p384Gy, 1)) (ecMul (r * w % n) (x, y, 1))
    let zi := invMod q.2.2 p
    q.2.2 != 0 && q.1 * (zi * zi % p) % p % n == r

/-- The signature check of a 97-byte uncompressed public key and a 96-byte signature over a message. -/
def ecdsaVerify (pub sig msg : List Byte) : Bool :=
  pub.headD 0 == 4#8 && ecdsaOk (ofBytesBE (sha384 msg)) (ofBytesBE (sig.take 48)) (ofBytesBE ((sig.drop 48).take 48))
    (ofBytesBE ((pub.drop 1).take 48)) (ofBytesBE ((pub.drop 49).take 48))

end Sys2Proof.Machine
end

