-- ==== Sys2Proof/Machine/Window.lean ====
section
/-! DEFINITION. The exact window, its partials, multi-pass binary32 and computed block scales
(04_number_formats.md, R115, R118 to R128). -/

namespace Sys2Proof.Machine

/-- An accumulator of the exact window (R118), which is also a window partial (R122). -/
structure Win where
  value : Int := 0
  low : Bool := false
  high : Bool := false
  nonfinite : Bool := false
  deriving DecidableEq, Repr

/-- sat120 of R119. -/
def sat120 (w : Win) (t : Int) : Win :=
  if 2 ^ 119 - 1 < t then { w with value := 2 ^ 119 - 1, high := true }
  else if t < -(2 ^ 119) then { w with value := -(2 ^ 119), high := true }
  else { w with value := t }

/-- The exact value ± p × 2^q in units of 2^E, clamped to the window or truncated, with LOW and HIGH (R119, R124). -/
def winTerm (neg : Bool) (p : Nat) (q e : Int) : Int × Bool × Bool :=
  let sh := q - e
  if 0 ≤ sh then
    let v : Int := if neg then -((p <<< sh.toNat : Nat) : Int) else (p <<< sh.toNat : Nat)
    if 2 ^ 95 - 1 < v then (2 ^ 95 - 1, false, true)
    else if v < -(2 ^ 95) then (-(2 ^ 95), false, true)
    else (v, false, false)
  else
    let k := (-sh).toNat
    let t : Nat := p >>> k
    (if neg then -(t : Int) else t, p % 2 ^ k ≠ 0, false)

/-- add_product of R119 on decoded, scaled operands. -/
def addProduct (w : Win) (a b : Fv) (e : Int) : Win :=
  match a, b with
  | .fin x m d, .fin y n c =>
    if m * n = 0 then w
    else
      let (v, lo, hi) := winTerm (x != y) (m * n) (d + c) e
      let w := { w with low := w.low || lo, high := w.high || hi }
      sat120 w (w.value + v)
  | _, _ => { w with nonfinite := true }

/-- A value as a partial (R124): a magnitude above the window is clamped after truncation too. -/
def toPartial (v : Fv) (e : Int) : Win :=
  match v with
  | .fin n m d =>
    if m = 0 then {}
    else
      let (t, lo, hi) := winTerm n m d e
      if 2 ^ 95 - 1 < t then { value := 2 ^ 95 - 1, low := lo, high := true }
      else if t < -(2 ^ 95) then { value := -(2 ^ 95), low := lo, high := true }
      else { value := t, low := lo, high := hi }
  | _ => { nonfinite := true }

/-- combine of R123. -/
def combineWin (a b : Win) : Win :=
  sat120 { value := 0, low := a.low || b.low, high := a.high || b.high, nonfinite := a.nonfinite || b.nonfinite }
    (a.value + b.value)

/-- A clamped to the window proper, HIGH set if that changed it (R120). -/
def clampWin (w : Win) : Win :=
  if 2 ^ 95 - 1 < w.value then { w with value := 2 ^ 95 - 1, high := true }
  else if w.value < -(2 ^ 95) then { w with value := -(2 ^ 95), high := true }
  else w

/-- The window's number, an exact value; a zero window is +0 (R120, R125). -/
def winValue (w : Win) (e : Int) : Fv :=
  if w.nonfinite then .nan false else .fin (w.value < 0) w.value.natAbs e

/-- The 128-bit layout of a partial (R122). -/
def winBits (w : Win) : Nat :=
  wrapInt w.value 120 + b2n w.low * 2 ^ 120 + b2n w.high * 2 ^ 121 + b2n w.nonfinite * 2 ^ 122

/-- A partial read from its layout; bits [127:123] are ignored (R144). -/
def winOfBits (x : Nat) : Win :=
  { value := sext x 120, low := bit x 120, high := bit x 121, nonfinite := bit x 122 }

/-- A drained accumulator or a partial that is read out: clamped to the window; in the rounded form one that is NONFINITE
is left as it is (R120, R125). -/
def drainWin (partials : Bool) (w : Win) : Win := if w.nonfinite && !partials then w else clampWin w

/-- A partial read out once as a number of format `f` (R125): its bits, flags, and the partial with HIGH updated. -/
def readPartial (f : Fmt) (rm : Nat) (sat : Bool) (w : Win) (e : Int) : Nat × Nat × Win :=
  let c := drainWin false w
  if c.nonfinite then (f.nanEnc, NV, c)
  else
    let (x, fl) := convert f rm sat 0 (winValue c e)
    (x, fl, c)

/-- Pairwise-tree summation of R60 over any addition; `fuel` bounds the depth. -/
def treeSumAux {α : Type} (add : α → α → α) : Nat → List α → Option α
  | 0, l => l.head?
  | n + 1, l =>
    match l with
    | [] => none
    | [a] => some a
    | _ =>
      let m := 2 ^ (clog2 l.length - 1)
      match treeSumAux add n (l.take m), treeSumAux add n (l.drop m) with
      | some a, some b => some (add a b)
      | some a, none => some a
      | none, b => b

/-- tree_sum of R60; none for an empty list. -/
def treeSum {α : Type} (add : α → α → α) (l : List α) : Option α := treeSumAux add (clog2 l.length + 1) l

/-- Addition of encoded numbers of format `f`, with accumulated flags. -/
def addEnc (f : Fmt) (rm : Nat) (a b : Nat × Nat) : Nat × Nat :=
  let (x, fl) := finish f rm false (fvAdd rm (decodeFmt f false a.1) (decodeFmt f false b.1))
  (x, fl ||| a.2 ||| b.2)

/-- binary64 addition to nearest even (R60). -/
def add64 (a b : DWord) : DWord := BitVec.ofNat 64 (addEnc binary64 0 (a.toNat, 0) (b.toNat, 0)).1

/-- binary32 addition to nearest even. -/
def add32 (a b : Nat) : Nat := (addEnc binary32 0 (a, 0) (b, 0)).1

/-- The top 8 significand bits of a binary32 encoding: part[1] of R126, with a zero part +0. -/
def splitTop (r : Nat) : Nat :=
  let v := decodeFmt binary32 false r
  match v with
  | .fin n m e =>
    if m = 0 then 0
    else
      let k := m.log2 + 1 - 8
      (roundTo binary32 1 false 0 n ((m >>> k) <<< k) e).1
  | _ => r

/-- A bfloat16 view of a part: bits below the bfloat16 significand are not carried (R126). -/
def asBf16 (r : Nat) : Nat :=
  let t := r / 2 ^ 16 * 2 ^ 16
  if t % 2 ^ 31 = 0 then 0 else t

/-- split of R126 into `n` parts; an infinite or NaN operand stands in the first part alone. -/
def splitParts (x : Nat) : Nat → List Nat
  | 0 => []
  | n + 1 =>
    match decodeFmt binary32 false x with
    | .fin _ _ _ =>
      let p := splitTop x
      let r := (finish binary32 0 false (fvAdd 0 (decodeFmt binary32 false x) (decodeFmt binary32 false (p ^^^ 2 ^ 31)))).1
      asBf16 p :: splitParts r n
    | .inf _ => x :: List.replicate n 0
    | .nan _ => List.replicate (n + 1) x

/-- A product rounded once to binary32 (R127). -/
def mul32 (f : Fmt) (a b : Nat) : Nat × Nat :=
  finish binary32 0 false (fvMul (decodeFmt f false a) (decodeFmt f false b))

/-- The products of class `t` for one k, i ascending (R127, R128). -/
def classTerms (f : Fmt) (a b : List Nat) (t : Nat) : List (Nat × Nat) :=
  (List.range a.length).filterMap (fun i =>
    -- parts are numbered from 1
    let j := t - (i + 1)
    if 1 ≤ j ∧ j ≤ b.length ∧ i + 1 < t then some (mul32 f (a.getD i 0) (b.getD (j - 1) 0)) else none)

/-- block_step of R128: one output, one A row against a 64-deep block; operands as lists of parts per k. -/
def blockStep (f : Fmt) (n : Nat) (c : Nat × Nat) (a b : List (List Nat)) : Nat × Nat :=
  let cls (t : Nat) : Nat × Nat :=
    (treeSum (addEnc binary32 0) ((List.zipWith (fun x y => classTerms f x y t) a b).flatten)).getD (0, 0)
  let s := (List.range (n - 1)).foldl (fun s i => addEnc binary32 0 s (cls (n - i))) (cls (n + 1))
  addEnc binary32 0 c s

/-- floor(log2) of a nonzero magnitude, as R115 takes it. -/
def lgFv : Fv → Option Int
  | .fin _ m e => if m = 0 then none else some (e + m.log2)
  | _ => none

/-- R115: a block of values into scale and elements; `us` are the random words of its elements under SR. -/
def computedBlock (f : Fmt) (rm : Nat) (xs : List Fv) (us : List Nat) : Nat × List Nat × Nat :=
  if xs.any (fun v => match v with | .fin _ _ _ => false | _ => true) then (0xFF, xs.map (fun _ => 0), NV)
  else
    let x : Nat :=
      match xs.filterMap lgFv with
      | [] => 127
      | l => (min (max (l.foldl max (l.headD 0) - f.emaxEl + 127) 0) 254).toNat
    let out := (xs.zip us).map (fun p =>
      let y := p.1.scale (127 - x)
      if f.isInt then convert f rm true p.2 (y.scale (-f.intExp)) else convert f rm true p.2 y)
    (x, out.map Prod.fst, out.foldl (fun a p => a ||| p.2) 0)

end Sys2Proof.Machine
end

