-- ==== Sys2Proof/Machine/State.lean ====
section
/-! DEFINITION. The state of the block as plain data: every register, buffer, queue, counter and mode the spec gives
the part, grouped by the unit that holds it, and the queue of waiting commands. -/

namespace Sys2Proof.Machine

/-! ### Tiles (03_tile.md, 05_matrix_vector_orders.md, 06_scalar_exchange_isa.md) -/

/-- What the check bits of an 8-byte word of tile memory say (R90, R91): a word not listed is good. -/
inductive WordState where
  | corrected     -- a single-bit error stands in the word; every read corrects it
  | broken        -- an error the code cannot correct, not yet met by a read
  | poisoned      -- the reserved check pattern (R91)
  deriving DecidableEq, Repr

/-- Why the Beagle holds a scalar core (R425 operation 4). -/
inductive StopReason where
  | breakpoint | brk | stop
  deriving DecidableEq, Repr

/-- What a scalar core is doing (R163 to R170). -/
inductive Activity where
  | off                                  -- its domain runs no program on it
  | run                                  -- ready for its next instruction
  | issStall (engine addr : Nat)         -- ISS on a full queue (R73)
  | swait (h n : Nat)                    -- SWAIT (R167)
  | await (cnt target : Nat)             -- AWAIT (R168)
  | lockStall                            -- arrived at a lock (R170)
  deriving DecidableEq, Repr

/-- The scalar core's registers and activity (R160, R173, R180). -/
structure Core where
  act : Activity := .off
  stop : Option StopReason := none       -- halted by the Beagle
  stopReq : Bool := false                -- a stop that takes effect after the instruction under way
  stepOver : Bool := false               -- the instruction at PC runs without breaking again (R425)
  pc : BitVec 12 := 0
  g : Vector Word 32 := Vector.replicate 32 0
  f : Vector DWord 32 := Vector.replicate 32 0
  fstat : BitVec 5 := 0
  cycle : DWord := 0
  cycleHi : Word := 0
  gated : Bool := false                  -- the core's datapath is gated in a wait (R456)
  waitedNs : Nat := 0
  deriving DecidableEq, Repr

/-- An order descriptor (R72). -/
abbrev Order := BitVec 128

/-- An order queue and its engine (R72 to R75), with the numeric status of R156 and R157. -/
structure Engine where
  queue : List Order := []               -- at most 16, oldest first
  pending : Option Order := none         -- left the head, not yet begun
  exec : Option Order := none            -- begun, its work not yet done
  owed : List Order := []                -- work done, signal not yet applied
  taken : Nat := 0                       -- orders taken from the queue since load (R97 INDEX)
  numstat : BitVec 8 := 0
  lowCount : Word := 0
  highCount : Word := 0
  nonfiniteCount : Word := 0
  orders : Word := 0
  scales : Tbl Nat := []                 -- NM_SCALE values read for the order under way (R422)
  gated : Bool := false                  -- its clock is gated (R456)
  waitedNs : Nat := 0                    -- how long its wait or its empty queue has lasted
  deriving DecidableEq, Repr

/-- A loaded B buffer (R139, R141): its raw element codes and scale bytes, element k of column n at n × depth + k. -/
structure BBuf where
  fmt : Nat
  scaled : Bool
  te : Bool
  t : Nat
  depth : Nat
  elems : List Nat
  scales : List Nat
  deriving DecidableEq, Repr

/-- An accumulator row and its tag (R139). -/
inductive AccRow where
  | empty
  | f32 (c : List Nat)
  | exact (e : Int) (w : List Win)
  deriving DecidableEq, Repr

/-- A send order under way (R176): flits already injected, and the 512-byte source block last read. -/
structure Sending where
  sent : Nat
  block : BitVec 4096
  deriving DecidableEq, Repr

/-- A sync object bound to a handle (R76, R79). -/
structure SyncObj where
  pool : Nat
  count : BitVec 16
  deriving DecidableEq, Repr

/-- The tile lock block (02_locks.md, Tile lock registers). -/
structure LockBlock where
  acctMark : BitVec 2 := 0
  cargoMask : BitVec 4 := 0
  contrib : Vector DWord 4 := Vector.replicate 4 0
  flagsOut : Word := 0
  index : BitVec 48 := 0
  cargo : Vector DWord 4 := Vector.replicate 4 0
  flagsIn : Word := 0
  committed : Bool := false
  late : Bool := false
  winLow : BitVec 4 := 0
  winHigh : BitVec 4 := 0
  nonfinite : BitVec 4 := 0
  acct : Vector DWord 7 := Vector.replicate 7 0   -- compute, exchange, syncwait, slack, stretch, imbalance, eval
  deriving DecidableEq, Repr

/-- The generator block (R288, R289): GEN_OUT shows the inputs of two cycles earlier, so both are kept. -/
structure GenBlock where
  keyLo : DWord := 0
  keyHi : DWord := 0
  genIn : DWord := 0
  genPos : DWord := 0
  prev1 : DWord × DWord := (0, 0)        -- (GEN_IN, GEN_POS) one cycle earlier
  prev2 : DWord × DWord := (0, 0)        -- two cycles earlier
  count : DWord := 0
  deriving DecidableEq, Repr

/-- One tile. -/
structure Tile where
  core : Core := {}
  ibuf : Tbl Word := []                  -- instruction buffer; an entry not listed is 0 (R94)
  mem : Mem := []                        -- 4 MiB (R85)
  chk : Tbl WordState := []              -- by 8-byte word
  sync : Tbl SyncObj := []               -- by handle; a handle not listed is not bound
  acnt : Tbl Word := []                  -- arrival counters; one not listed is 0
  mxe : Engine := {}
  vxe : Engine := {}
  xe : Engine := {}
  mtd : Vector (BitVec 256) 16 := Vector.replicate 16 0
  vtd : Vector (BitVec 256) 16 := Vector.replicate 16 0
  vk : Vector DWord 16 := Vector.replicate 16 0
  buf0 : Option BBuf := none
  buf1 : Option BBuf := none
  acc : Tbl AccRow := []                 -- by 256 × set + row; a row not listed is EMPTY
  sending : Option Sending := none
  recvWait : Bool := false               -- a RECV order is testing its counter (R177)
  faulted : Bool := false                -- TILE_STATUS.STOPPED
  tileFault : DWord := 0
  faultAddr : DWord := 0
  syncOverflow : Bool := false
  memCorrected : Bool := false
  memPoison : Bool := false
  ceCount : Word := 0
  ueCount : BitVec 16 := 0
  memErrAddr : DWord := 0
  ovfHandle : Byte := 0
  vx : Nat := 0                          -- TILE_ID
  vy : Nat := 0
  home : Option Nat := none              -- device context whose domain holds the tile
  lock : LockBlock := {}
  gen : GenBlock := {}
  tapEn : BitVec 16 := 0                 -- NM_CTRL.TAPEN, bit k of slot k
  dsEn : BitVec 16 := 0                  -- NM_CTRL.DSEN
  nmScale : Tbl Nat := []                -- NM_SCALEk.T; one not listed is 0x7F
  brk : Tbl Nat := []                    -- breakpoint n to instruction-buffer index (R425)
  retryCause : BitVec 8 := 0             -- what happened to it this lock cycle, bit per cause code of R51
  arrived : Bool := false                -- it has arrived at the lock being gathered
  arrivedMark : BitVec 2 := 0            -- ACCT_MARK at that arrival (R54)
  releaseAt : Nat := 0                   -- time-base time at which the last release became visible (R54)
  holdRelease : Bool := false            -- a fired release is not yet visible to it (R70)
  deriving DecidableEq, Repr

/-- A tile as a start leaves it. [DESIGN CHOICE: log 6] -/
def Tile.reset : Tile := {}

/-! ### Domain contexts and locks (02_locks.md, 16_faults.md Replay) -/

/-- LKD_STATUS.STATE. -/
inductive DomState where
  | stopped | forming | running | halted | aborted
  deriving DecidableEq, Repr

/-- What a member samples at its arrival at a lock (R59), with the time it became visible and its cause (R51). -/
structure Arrival where
  tile : Nat
  time : Nat
  cause : Nat
  mask : BitVec 4
  vals : Vector DWord 4
  flags : Word
  deriving DecidableEq, Repr

/-- A gather marker as a child device sends it up (R56). -/
structure GatherMarker where
  trunk : Nat                            -- trunk it came in on, 6 from a Basin
  device : Nat
  index : Nat
  latest : Nat
  cause : Nat
  epoch : Nat
  digest : Nat
  mismatch : Bool
  stagedDigest : Nat
  stagedTarget : Nat
  stagedState : Nat
  halt : Bool
  abort : Bool
  flags : Word
  presence : BitVec 4
  status : BitVec 12
  cargo : Vector (BitVec 128) 4          -- binary64 in the low half, or a window partial
  exact : Bool := false                  -- the cargo is window partials (MFLAGS bit 6)
  at_ : Nat := 0                         -- when it came in: a node forwards the code of its latest-arriving child (R51)
  deriving DecidableEq, Repr

/-- A release marker (R56). -/
structure Release where
  index : Nat
  fire : Nat
  cause : Nat
  epoch : Nat
  digest : Nat
  stagedDigest : Nat
  stagedTarget : Nat
  halt : Bool
  abort : Bool
  armed : Bool
  commit : Bool
  flags : Word
  presence : BitVec 4
  status : BitVec 12
  cargo : Vector DWord 4
  mismatch : Bool := false               -- fired with HALT for differing configurations (R57)
  drop : Bool := false                   -- the staged set is discarded (R66 mismatch)
  replay : Bool := false                 -- the replay release of a rewind (R438)
  late : Bool := false                   -- a scheduled action of the domain executes late with it (R69)
  deriving DecidableEq, Repr

/-- A staged configuration set (R64 to R68, R404). -/
structure Staged where
  target : Nat
  digest : Nat
  items : List (Nat × List Byte)         -- (CODE, value) in ascending order
  acceptedAt : Nat                       -- last lock fired at acceptance
  onStopped : Bool
  armed : Option Nat                     -- lock at which it commits, once armed
  lateMode : Bool
  fn : Nat                               -- issuing function and result slot of its DOMAIN_STAGE
  slot : Nat
  deriving DecidableEq, Repr

/-- A recovery under way (R434, R441). -/
structure Recovery where
  class_ : Nat                           -- fault class (R450)
  granule : Option Nat                   -- physical granule substituted, if any
  vgranule : Nat × Nat                   -- virtual granule reported, (0xFF, 0xFF) for none
  detected : Nat                         -- time of detection
  lastFired : Nat
  lost : Bool                            -- a flit was lost or poisoned: a replay follows
  deriving DecidableEq, Repr

/-- Idle totals and counters of one domain, in the order of R54: compute, exchange, syncwait, slack, stretch, imbalance, eval. -/
abbrev IdleTotals := Vector DWord 7

/-! ### Functions, mailboxes and events (14_mailboxes.md) -/

/-- An event before it is written to a ring (R400): bytes 24 to 63 are BODY as a little-endian number. -/
structure Event where
  ty : Nat
  sub : Nat
  time : Nat
  tenant : Nat
  domain : Nat
  body : Nat
  deriving DecidableEq, Repr

/-- A function's event queue (R400, R401). -/
structure EventQueue where
  base : Nat
  logLen : Nat
  tail : Nat
  phase : Bool
  evseq : Nat
  deriving DecidableEq, Repr

/-- A completed result (R403). -/
structure ResultRec where
  gen : Nat
  code : Nat
  status : Nat
  detail : Nat
  flags : Nat
  len : Nat
  data : BitVec 1792                     -- result data, bytes 32 to 255 of the record
  deriving DecidableEq, Repr

/-- One result slot (R391, R392). -/
structure Slot where
  gen : Nat := 0                         -- newest generation issued
  running : Bool := false
  code : Nat := 0                        -- command of the running generation
  cmd : BitVec 2048 := 0                 -- its copy of MBX_CMD
  ready : Option ResultRec := none       -- outcome decided, not yet completed
  done : Option ResultRec := none        -- newest completed
  read : Bool := false                   -- it has been read once
  deriving DecidableEq, Repr

/-- An immediate outcome waiting to be written to MBX_RSP (R381, R388). -/
structure Resp where
  status : Nat
  rflags : Nat
  slot : Nat
  detail : Nat
  gen : Nat
  len : Nat
  data : BitVec 1920                     -- payload, bytes 16 to 255 of MBX_RSP
  deriving DecidableEq, Repr

/-- An error answer of the SPDM responder (R370; the others as SPDM 1.2 names them). -/
inductive SpdmError where
  | busy | unspecified | unexpectedRequest | invalidRequest | sessionLimit | unsupported
  deriving DecidableEq, Repr

/-- One measurement: a SHA-384 digest, or raw values (R369). -/
inductive Meas where
  | digest (index : Nat) (d : BitVec 384)
  | raw (index : Nat) (l : List Nat)
  deriving DecidableEq, Repr

/-- The capabilities that a responder may state (R368). -/
inductive SpdmCap where
  | cert | chal | measSig | keyEx | mac | encrypt | hbeat | keyUpd
  deriving DecidableEq, Repr

/-- The algorithms that a responder may select (R368). -/
inductive SpdmAlg where
  | ecdsaP384 | sha384 | secp384r1 | aes256Gcm
  deriving DecidableEq, Repr

/-- What an answer of the responder needs DRBG output for (R295). -/
inductive SpdmNeed where
  | challenge
  | measurements (index : Nat)
  | keyExchange
  deriving DecidableEq, Repr

/-- An answer of the SPDM responder (R368): what it says, its signature apart. -/
inductive SpdmAnswer where
  | version (v : Nat)                    -- 0x12
  | capabilities (l : List SpdmCap)
  | algorithms (asym hash measHash dhe aead : SpdmAlg)
  | digests (l : List (Nat × BitVec 384))          -- (slot, digest of its chain)
  | certificate (chain : List (List Byte))         -- the device identity certificate, then the alias certificate
  | challengeAuth (nonce : BitVec 256)
  | measurements (nonce : BitVec 256) (blocks : List (List Byte))
  | measurementCount (nonce : BitVec 256) (n : Nat)
  | keyExchange (session : Nat) (random : BitVec 256)
  | finish (session : Nat)
  | heartbeat (session : Nat)
  | keyUpdate (session : Nat)
  | endSession (session : Nat)
  | error (e : SpdmError)
  deriving DecidableEq, Repr

/-- An SPDM session: the responder's secret drawn for it, whether FINISH has completed, and its key updates. -/
structure SpdmSession where
  secret : BitVec 384
  finished : Bool := false
  updates : Nat := 0
  deriving DecidableEq, Repr

/-- The SPDM responder of a function (R368): how far negotiation has come (0 to 3) and its sessions. -/
structure Spdm where
  stage : Nat := 0                       -- 1 after GET_VERSION, 2 after GET_CAPABILITIES, 3 after NEGOTIATE_ALGORITHMS
  sessions : Tbl SpdmSession := []       -- by session number 0 to 3
  out : List SpdmAnswer := []            -- answers sent, oldest first
  deriving DecidableEq, Repr

/-- An entry of a function's MSI-X table; PCI Express leaves it masked at reset. [PRESUMED: log 171] -/
structure MsixEntry where
  addr : DWord := 0
  data : Word := 0
  masked : Bool := true
  deriving DecidableEq, Repr

/-- The mailbox and session of one PCIe function (R378 to R401). -/
structure Fn where
  irqRsp : Bool := false
  irqEvt : Bool := false
  eqHead : Nat := 0
  rspValid : Bool := false
  busy : Bool := false
  doorbellDropped : Bool := false
  writeDropped : Bool := false
  eqOverflow : Bool := false
  seq : BitVec 16 := 0
  cmd : BitVec 2048 := 0
  rsp : BitVec 2048 := 0
  accepted : Option (BitVec 2048 × BitVec 16) := none   -- copy of MBX_CMD and SEQ (R381)
  acceptedAt : Nat := 0
  order : Nat := 0                       -- place of that doorbell among those that the device has accepted (R363)
  resp : Option Resp := none             -- outcome past its commit point (R385)
  caught : Bool := false                 -- a warm restart holds its response back (R385)
  version : Option Nat := none           -- negotiated major × 256 + minor; none without a session
  slots : Tbl Slot := []
  eq : Option EventQueue := none
  held : List Event := []                -- at most 64, oldest first
  lost : Nat := 0                        -- events lost since the last OVERFLOW entry
  capgen : Nat := 0
  epoch : Nat := 0                       -- resets so far: results of work begun before a reset are dropped (the model's own)
  fell : Option Nat := none              -- when BUSY last fell (R383)
  spdm : Spdm := {}
  msix : List Nat := []                  -- MSI-X vectors sent, oldest first
  vec0 : MsixEntry := {}                 -- the MSI-X table in BAR2 (R378)
  vec1 : MsixEntry := {}
  pba : BitVec 2 := 0                    -- its pending-bit array
  deriving DecidableEq, Repr

/-! ### Tenants and granules (13_tenancy.md, 16_faults.md) -/

/-- TEN_STATE.STATE (R355). -/
inductive TenState where
  | free | settingUp | active | resetting | releasing
  deriving DecidableEq, Repr

/-- One tenant's block, window and resources (R354, R355, R224). -/
structure Tenant where
  st : TenState := .free
  scrubFailed : Bool := false
  subst : Nat := 0
  ox : Nat := 0
  oy : Nat := 0
  width : Nat := 0
  height : Nat := 0
  canal : Nat := 0
  basin : Nat := 0
  syncQ : Nat := 0
  shard : Nat := 0
  loopQp : Nat := 0
  power : Nat := 0
  debug : Bool := true
  lendOut : Bool := false
  lendIn : Bool := false
  baseGib : Nat := 0                     -- HWINt
  sizeGib : Nat := 0
  keys : Option (BitVec 768) := none     -- XTS pair and tag key, in every Hold controller's key registers (R233)
  canalSlots : List Nat := []            -- its slot numbers of one frame (R358)
  accessSlots : List (Nat × Nat) := []   -- its Hold access slots in every stack's frame, as runs (first, count) (R358)
  basinGib : Nat := 0
  joined : List (Nat × Nat) := []        -- (function, slot) of reset commands that wait
  releaseWanted : Bool := false          -- a release waits for a reset or set-up to end (R367)
  setupBy : Option (Nat × Nat) := none   -- (function, slot) of the set-up under way
  releaseBy : List (Nat × Nat) := []     -- (function, slot) of release commands that wait
  flr : List Nat := []                   -- functions whose reset ends with the reset or release under way
  abortedAt : Nat := 0                   -- when its domains were aborted (R365 step 1)
  meas5 : List Nat := [0, 0, 0, 0, 1, 0] ++ List.replicate 48 0  -- measurement 5: block, HWIN and quotas by die (R369)
  meas6 : List Nat := [0, 0]             -- measurement 6: image digest, spill level, MODE and MOVED_ELASTIC by domain (R369)
  deriving DecidableEq, Repr

/-- R356. -/
inductive GranState where
  | clean | owned (tenant : Nat) | dirty | unusable
  deriving DecidableEq, Repr

/-- A detour path in use (R431, R432). -/
structure Detour where
  granule : Nat                          -- physical granule it is charged to
  side : Nat                             -- 0 north, 1 east, 2 south, 3 west
  spare : Option Nat := none             -- the spare it leads to, for a substitution
  draining : Bool := false               -- the side's buffers have not drained yet
  lost : Bool := false                   -- the fault dropped or poisoned a flit
  detected : Nat := 0
  deriving DecidableEq, Repr

/-! ### Routers (07_on_wafer_exchange.md) -/

/-- A flit (R186): header fields, payload, and the words of it that fail their check, bit per word (R187). -/
structure Flit where
  ch : Nat
  dst : Nat                              -- destination byte address [21:6]
  acnt : Nat
  lane : Nat
  payload : Line
  bad : BitVec 8 := 0
  deriving DecidableEq, Repr

/-- The fused sum-of-squares accumulator of a combining root (R201, R202). -/
structure Ssq where
  acc : Win := {}
  values : Nat := 0
  count : Nat := 0                       -- combined flits granted since the last sum-of-squares flit
  deriving DecidableEq, Repr

/-- One router. Ports: 0 local, 1 north, 2 east, 3 south, 4 west. A lane of a port is numbered 8 × port + lane. -/
structure Router where
  routes : Tbl (BitVec 128) := []        -- RTEi; one not listed is 0
  openMask : BitVec 4 := 0               -- RTR_OPEN
  status : BitVec 5 := 0                 -- RTR_STATUS
  fence : BitVec 16 := 0                 -- RTR_DROPS
  miss : BitVec 16 := 0
  mismatch : BitVec 16 := 0
  hdrCe : BitVec 16 := 0                 -- RTR_LINKERR
  hdrUe : BitVec 16 := 0
  payCe : BitVec 16 := 0
  payUe : BitVec 16 := 0
  lastDrop : DWord := 0
  ceTimes : Tbl (List Nat) := []         -- by input: when headers of its link were corrected within the last second (R429)
  inq : Tbl (List Flit) := []            -- input lane buffers, head first
  granted : Tbl Nat := []                -- outputs already granted for the head flit of a lane, bit per OUT bit
  used : Tbl Nat := []                   -- credits in use at a mesh output lane
  returning : Tbl Nat := []              -- credits freed downstream, on their way back (R193)
  ready : Tbl Flit := []                 -- the combined flit of an entry, ready (R198)
  ssq : Tbl Ssq := []
  ssqReady : Tbl (List Flit) := []       -- sum-of-squares flits ready, oldest first
  localOut : Option (Flit × Bool × Nat) := none   -- granted at the local output: true for the wharf, input port (R194)
  deriving DecidableEq, Repr

def Router.reset : Router := {}

/-! ### Canal network, wharves and the Hold (08_canal_and_hold.md, 16_faults.md) -/

/-- One barge (R208). -/
structure Barge where
  ty : Nat                               -- TYPE: 1 RD_REQ, 2 WR, 3 ACC_WR, 4 PORT_OUT, 5 RD_RPL, 6 WR_ACK, 7 PORT_IN
  tenant : Nat
  prov : Bool := false                   -- PROV: provider or Lockkeeper traffic
  src : Nat
  dst : Nat                              -- DST: a replication set when MC = 1
  mc : Bool := false                     -- MC
  line : Nat := 0
  count : Nat := 0                       -- COUNT: RD_REQ lines − 1, RD_RPL index of the line
  moff : Nat := 0
  stream : Nat := 0
  wmask : BitVec 8 := 0xFF
  status : Nat := 0
  poison : Bool := false
  payload : Line := 0
  bad : BitVec 8 := 0                    -- poisoned words of the payload
  basin : Bool := false                  -- LINE lies in the tenant's Basin window
  retry : Bool := false                  -- its data were carried by a replayed link block (R321)
  sect : Bool := false                   -- a PORT_OUT or PORT_IN barge that carries a SECTEND (R329)
  port : Nat := 0                        -- PORT_OUT: home port within the I/O die (PIX)
  circuit : Nat := 0                     -- PORT_OUT: its circuit (R328)
  ctx : Nat := 0                         -- PORT_OUT: its domain's context
  op : Nat := 0                          -- the sender's number of the operation (the model's own)
  idx : Nat := 0                         -- line of that operation; from 2^20 on an expansion record line (the model's own)
  taken : Nat := 0                       -- lines of an RD_REQ already accepted (the model's own)
  copies : List (Nat × Nat × Nat × Nat) := []   -- MC: wharf, operation, line of it and stream of each copy (R229)
  credit : Option (Nat × Nat) := none    -- receive-queue credit that it gives back as it leaves: port, owner (R325)
  deriving DecidableEq, Repr

/-- One mooring line (R219). -/
structure Moor where
  data : Line := 0
  bad : BitVec 8 := 0
  present : Bool := false
  retry : Bool := false                  -- landed from a replayed link block (R51 code 1)
  deriving DecidableEq, Repr

/-- A READ command under way (R215, R220). -/
structure WharfRead where
  id : Nat
  stream : Nat
  loff : Nat
  count : Nat
  moff : Nat
  got : Tbl (Line × BitVec 8) := []      -- source lines received, with their poisoned words, by index
  recs : Tbl (Line × Bool) := []         -- expansion record lines received, by line from RBASE
  settled : List Nat := []               -- source lines landed or refused
  deriving DecidableEq, Repr

/-- A FENCE under way (R215). -/
structure WharfFence where
  id : Nat
  stream : Nat
  tile : Nat
  dst : Nat
  acnt : Nat
  deriving DecidableEq, Repr

/-- A PULL request (R178, R222). -/
structure WharfPull where
  tile : Nat                             -- local index
  moff : Nat
  dst : Nat
  nflit : Nat
  acnt : Nat
  sent : Nat := 0
  deriving DecidableEq, Repr

/-- Lines of a stream since its previous FENCE (R215). -/
structure StreamCount where
  done : Nat := 0
  failed : Nat := 0
  refused : Nat := 0
  deriving DecidableEq, Repr

/-- Where a PORT_IN stream lands (R330). -/
structure Section where
  index : Nat := 0                       -- current section
  offset : Nat := 0                      -- lines landed in it
  deriving DecidableEq, Repr

/-- One wharf. [DESIGN CHOICE: log 40] -/
structure Wharf where
  streams : Tbl (BitVec 256) := []       -- WSTs; one not listed is 0
  status : BitVec 6 := 0                 -- WHF_STATUS
  err : DWord := 0                       -- WHF_ERR
  xof : BitVec 16 := 0                   -- WHF_XCNT
  xnv : BitVec 16 := 0
  xuf : BitVec 16 := 0
  moor : Tbl Moor := []
  inq : List (Nat × Flit × Nat) := []    -- flits taken: local index of the router, flit, next command
  reads : List WharfRead := []
  fences : List WharfFence := []
  writes : List (Nat × Nat × Nat) := []  -- unacknowledged writes: number, stream, line offset
  counts : Tbl StreamCount := []         -- by stream
  nextOp : Nat := 0
  pulls : List WharfPull := []           -- in posting order
  backlog : List Barge := []             -- requests of accepted commands waiting for room in the egress queue
  sections : Tbl Section := []           -- by stream
  sects : List (Nat × Nat) := []         -- SECTENDs due: PORT_OUT stream, flits of it in `inq` that precede it (R329)
  deriving DecidableEq, Repr

def Wharf.reset : Wharf := {}

/-- Metadata of one Hold line (R230, R234): its write stamp and whether it is poisoned. -/
structure HoldMeta where
  poison : Bool := false
  stamp : Word := 0
  deriving DecidableEq, Repr

/-- An accepted line access waiting for its access slot (R226); `op` names the requester's operation. -/
structure HoldOp where
  ty : Nat                               -- 1 read, 2 WR, 3 ACC_WR
  line : Nat
  tenant : Nat
  prov : Bool := false                   -- of the provider or the Lockkeeper
  src : Nat
  moff : Nat := 0
  stream : Nat := 0
  count : Nat := 0
  op : Nat := 0
  idx : Nat := 0
  wmask : BitVec 8 := 0xFF
  payload : Line := 0
  bad : BitVec 8 := 0
  mbn : Word := 0                        -- the domain's MBN at acceptance (R437)
  late : Bool := false                   -- accepted after the release of N_s (R262)
  merged : Bool := false                 -- it fills a merge entry
  deriving DecidableEq, Repr

/-- A merge entry (R228). -/
structure Merge where
  line : Nat
  tenant : Nat
  prov : Bool := false
  opened : Nat
  closed : Bool := false                 -- a write has closed it to further joiners
  ready : Option (Line × Bool × Nat) := none   -- data, poison, status
  waiting : List HoldOp := []
  deriving DecidableEq, Repr

/-- One Hold stack and its controller (R443). -/
structure Stack where
  failed : Bool := false
  degraded : Bool := false
  rebuilding : Bool := false
  takeover : Bool := false
  progress : Nat := 0
  status : BitVec 4 := 0                 -- HST_STATUS
  corrected : Word := 0                  -- HST_ERRCNT
  rebuilt : BitVec 16 := 0
  poisoned : BitVec 16 := 0
  rebuilds : List Nat := []              -- when lines were rebuilt in the last second, the latest first (R442)
  ops : List HoldOp := []                -- accepted accesses in order
  merges : List Merge := []
  halved : Bool := false                 -- access slots halved for temperature (R465)
  refreshOnly : Bool := false
  temp : Int := 0                        -- the last calibrated reading, 1/16 °C
  coolSince : Option Nat := none         -- since when below 95 °C (R465)
  deriving DecidableEq, Repr

/-- A quadrant's failed stacks, in the order they failed, and whether the first one's data are rebuilt (R235, R236). -/
structure Quadrant where
  failed : List Nat := []                -- stack positions 0 to 7
  rebuilt : Bool := false
  deriving DecidableEq, Repr

/-! ### Update units (09_update_units.md) -/

/-- The step prologue of one tensor group (R263): gradient scale, learning rate, decay and bias corrections, binary32. -/
structure GroupStep where
  k : Nat
  lr : Nat
  dl : Nat
  bc1 : Nat
  bc2 : Nat
  deriving DecidableEq, Repr

/-- A step attempt between the releases of N_s and C_s (R260). -/
structure StepRun where
  t : Nat                                -- the step being applied
  lock : Nat                             -- N_s
  norm : DWord
  skip : Bool
  c : Nat                                -- clip factor of the last group, binary32
  groups : Tbl GroupStep
  factorDone : List (Nat × Nat)          -- (shard entry, factor block; 0 is the header) finished
  blocksDone : List (Nat × Nat)          -- (shard entry, block) finished
  digests : Tbl Nat                      -- by shard entry, over the blocks done
  recs : Tbl (List Byte) := []           -- group records in force at N_s, by group (R260 step 3)
  old : List (Nat × Nat × Line) := []    -- (shard entry, line, content at the last C_s) of the lines processed (R274)
  deriving DecidableEq, Repr

/-- The domain update block (09, Domain update registers) and the schedule of the image. -/
structure Update where
  digestN : Nat := 0
  policyHalt : Bool := false
  nslot : Nat := 0
  tslot : Nat := 1
  n0 : Nat := 0
  lstep : Nat := 0
  wsweep : Nat := 0
  fpass : Bool := false
  ustep : Nat := 0
  uskip : Word := 0
  unorm : DWord := 0
  ulast : DWord := 0
  ustatus : BitVec 9 := 0
  udigfail : DWord := 0
  attempts : Nat := 0                    -- step attempts s begun (R259)
  run : Option StepRun := none
  haltWanted : Bool := false             -- policy 1: HALT in the next gather (R272)
  imported : Tbl Nat := []               -- STEP of each imported shard, by shard entry (R274)
  committed : Tbl Nat := []              -- shard digests of the last committed step, by shard entry (R271)
  deriving DecidableEq, Repr

/-! ### Giore and Basin ports, fabric and formation (12_multi_device.md) -/

/-- A link unit (R316): tag and body. -/
structure LinkUnit where
  kind : Nat
  index : Nat
  body : Line
  deriving DecidableEq, Repr

/-- Training state of a port (R336); 7 FAILED. -/
inductive LinkState where
  | down | signal | align | negotiate | delay | tables | up | failed
  deriving DecidableEq, Repr

/-- One block as sent: its sequence number and units (R317). -/
structure Block where
  seq : Nat
  units : List (Nat × LinkUnit)          -- (slot position, unit); other positions idle
  idle : Bool := false                   -- sent while the replay buffer was full: IDLE units only, no room taken (R320)
  deriving DecidableEq, Repr

/-- One Giore (0 to 47) or Basin (48 to 55) port. -/
structure GPort where
  state : LinkState := .down
  width : Nat := 0
  vminor : Nat := 0
  vmajor : Nat := 0
  fdelay : Nat := 0                      -- measured fibre delay, as GLINK.FDELAY holds it
  partner : Nat := 0
  pport : Nat := 0
  status : BitVec 8 := 0                 -- GPORT_STATUS
  crcCount : BitVec 16 := 0
  dropCount : BitVec 16 := 0
  overrunCount : BitVec 16 := 0
  poisonCount : BitVec 16 := 0
  fsltTx : Tbl (BitVec 32) := []
  fsltRx : Tbl (BitVec 32) := []
  gmptTx : Tbl DWord := []
  gmptRx : Tbl DWord := []
  stateSince : Nat := 0                  -- time the present training state was entered
  txSeq : Nat := 0                       -- next block's SEQ
  replay : List Block := []              -- unacknowledged blocks, oldest first, at most 64
  filling : List (Nat × LinkUnit) := []  -- units of the block being filled
  slotPos : Nat := 0                     -- next slot position of the frame (R323)
  nakAck : Nat := 0                      -- ACK of the last NAK, and how many in a row
  nakCount : Nat := 0
  ackAt : Nat := 0                       -- time an acknowledgement last advanced
  replayFrom : Option Nat := none        -- a NAK asks for replay after this SEQ
  rxSeq : Nat := 4095                    -- SEQ of the last block accepted
  rxReplayWait : Bool := false           -- discarding until a block marked REPLAY (R320)
  sendNak : Bool := false                -- NAK in the next link control word
  wire : List (Block × BitVec 160) := [] -- blocks that the last sending put on the link, with their control words (R317)
  helloAt : Nat := 0                     -- when the last HELLO was sent (R337)
  masterHops : Option Nat := none        -- fabric hops from the partner to the time master (R338)
  rxCount : Nat := 0                     -- blocks accepted since training: places the frame (R321)
  rxq : List (Nat × Bool × LinkUnit) := []   -- received units: (slot, carried by a replay, unit)
  queues : Tbl (List LinkUnit) := []     -- owner's queued units
  sysq : List LinkUnit := []             -- LINK units of the port itself waiting for a system slot
  breqs : List Barge := []               -- Basin port: requests waiting for a tag (R241), in order
  creditUsed : Tbl Nat := []             -- by owner: units sent and not yet freed by the receiver
  freed : Tbl Nat := []                  -- by owner: units freed here and not yet returned as credits
  timeRetrains : Nat := 0                -- time retrainings in a row that did not restore the bound (R339)
  timeRetrainAt : Option Nat := none
  signalLostAt : Option Nat := none      -- since when the port has had no signal
  retrainStart : Option Nat := none      -- a retraining began (R322)
  lossReported : Bool := false
  deriving DecidableEq, Repr

def GPort.reset : GPort := {}

/-- A circuit of a trunk (R327) and its landing state (R330). -/
structure Circuit where
  in_ : Bool
  domain : Nat                           -- domain identifier
  ctx : Nat                              -- device context
  wharf : Nat
  wst : Nat
  port : Nat
  discard : Bool := false                -- units are discarded until REPLAY_MARK (R438)
  deriving DecidableEq, Repr

/-- A domain grant (R341, grant record). -/
structure Grant where
  domainId : Nat
  tenant : Nat
  relay : Bool
  root : Bool
  parent : Nat                           -- trunk, 0xFF at the root
  children : BitVec 6
  backup : Nat
  k : Nat
  trunks : List (Nat × Nat × Nat)        -- slots m, circuit base, circuit count of trunks 0 to 5
  raw : Nat                              -- bytes 16 to 79 of the record
  deriving DecidableEq, Repr

/-- A child's FORM (R318). -/
structure FormMsg where
  trunk : Nat
  members : Nat
  lowest : Nat                           -- version, major × 16 + minor
  required : Nat
  depth : Nat
  he : Nat                               -- ps
  image : Nat
  deriving DecidableEq, Repr

/-- Formation under way on this device (R341). -/
structure Formation where
  fn : Nat
  slot : Nat
  started : Nat
  sent : Bool                            -- FORM passed on to the parent, or FORMED sent by the root
  deriving DecidableEq, Repr

/-- A digest of a replica set received for comparison (R344). -/
structure DigestEntry where
  device : Nat
  tid : Nat
  repl : Nat
  grow0 : Nat
  gcol0 : Nat
  digest : Nat
  deriving DecidableEq, Repr

/-- An outstanding Basin tag (R241): its request and the lines of it answered. -/
structure BasinTag where
  req : Barge
  got : Nat := 0                         -- lines answered under this tag
  skip : Nat := 0                        -- lines already answered under an earlier tag (R446)
  dead : Bool := false                   -- abandoned: its replies are discarded (R365)
  deriving DecidableEq, Repr

/-- The device's place in the fabric (R338, R339). -/
structure Fabric where
  devid : Nat := 0
  master : Bool := false
  fmax : Nat := 0
  terr : Nat := 0                        -- error e in 0.5 ns
  drifting : Bool := false
  offset : Int := 0                      -- last offset to the time parent, in 0.1 ns (R338)
  grants : Tbl Grant := []               -- by domain identifier
  circuits : Tbl Circuit := []           -- by 4,096 × trunk + circuit
  tags : Tbl BasinTag := []              -- outstanding Basin tags, by 4,096 × Basin port + tag
  markers : Tbl (List (LinkUnit × LinkUnit)) := []   -- marker pairs waiting, by 65,536 × trunk + domain (6 the Basin ports)
  links : Tbl (List LinkUnit) := []      -- LINK units to a partner device, by trunk
  moving : Tbl Nat := []                 -- failed port to its successor, until the partner's PORT_MOVE comes
  moved : Tbl Nat := []                  -- failed port to the port its circuits moved to (R445)
  marks : Tbl (List Nat) := []           -- by domain: ports whose REPLAY_MARK has yet to come (R438)
  forms : Tbl (List FormMsg) := []       -- FORMs received from children, by domain identifier
  lostTrunks : List Nat := []            -- trunks whose device was declared lost (R349)
  basinReleases : List Nat := []         -- tenants whose Basin window was released, oldest first (R365 step 3)
  resumes : List Nat := []               -- domains whose resume went up the tree from here, oldest first (R403)
  basinBound : Nat := 0                  -- largest read bound that the Basins in use have stated, ns (R242)
  deriving DecidableEq, Repr

/-! ### One domain context -/

/-- A device context: registers, gather and release, staged set, update block, seed, formation and recovery. -/
structure Ctx where
  -- LKD registers (02, Domain context)
  enable : Bool := false
  elastic : Bool := true                 -- LKD_CTRL.MODE 1
  cargoExact : Bool := false
  elasticPin : Bool := false
  domainId : Nat := 0
  period : Nat := 1000
  overhead : Nat := 88
  stretchLimit : Nat := 10000000
  index : Nat := 0
  epoch : Nat := 0
  digest : Nat := 0
  cargoExp : Vector (BitVec 16) 4 := Vector.replicate 4 0
  state : DomState := .stopped
  overdue : Bool := false
  configMismatch : Bool := false
  lateCommit : Bool := false
  movedElastic : Bool := false
  winLow : BitVec 4 := 0
  winHigh : BitVec 4 := 0
  nonfinite : BitVec 4 := 0
  stretchCount : Vector DWord 6 := Vector.replicate 6 0
  stretchTime : Vector DWord 6 := Vector.replicate 6 0
  -- load
  loaded : Bool := false
  huus : List Nat := []                  -- HUUs that hold shards of the domain
  pProved : Nat := 0
  oAssumed : Nat := 88
  tclass : Nat := 0
  spans : Bool := false                  -- the domain spans devices
  identified : Bool := false             -- LKD_CTRL shows DOMAIN_ID: assigned at formation (R341)
  basinMember : Bool := false            -- a Basin that holds update state is a member (R243)
  -- seed (R277, R278)
  k0 : DWord := 0
  k1 : DWord := 0
  seedMarked : Bool := false
  huuK0 : DWord := 0                     -- the copy of K in the domain's HUUs, as of the last load (R279)
  huuK1 : DWord := 0
  -- gather of lock index + 1 (or 0)
  started : Bool := false                -- lock 0 has been released
  fireTime : Nat := 0                    -- F_k of the last lock fired
  firstArrival : Option Nat := none
  arrivals : List Arrival := []
  huuArrived : List (Nat × Nat × Nat) := []   -- HUU, time, cause
  huuIndex : Nat := 0                    -- last lock released to the HUUs
  huuHold : Bool := false                -- a fired release is not yet visible to the HUUs and wharves
  lkArrived : Bool := false
  lkTime : Nat := 0                      -- when the Lockkeeper arrived, with code 0 (R39)
  childMarkers : List GatherMarker := []
  formedHere : Bool := false             -- FORMED is accepted: the gather of lock 0 may leave (R341)
  overdueFor : Option Nat := none        -- lock whose overdue point was reported (R53)
  switching : Bool := false              -- the tree is switching to a backup path (R351)
  gatherSent : Bool := false             -- this device's gather marker has gone to the parent
  haltReq : Bool := false
  abortReq : Bool := false
  lateAt : List Nat := []                -- locks at which a scheduled action executes late (R69)
  causes : BitVec 8 := 0                 -- what happened to every member here this lock cycle, bit per cause code of R51
  haltAt : List Nat := []                -- locks at which a scheduled HALT request is due (R425, R427)
  release : Option Release := none       -- fired, becoming visible to members
  heldRelease : Option Release := none   -- held by HALT (R58)
  visibleAt : Nat := 0                   -- earliest time members may see `release`
  staged : Option Staged := none
  -- telemetry, monitor, trace
  totals : IdleTotals := Vector.replicate 7 0
  monBase : Tbl Int := []                -- BASE of monitor slots
  dsEmax : Tbl Nat := []
  dsMargin : Tbl Int := []
  powerShare : Nat := 0
  lendThreshold : Nat := 0
  lendDefault : Nat := 4000              -- the profile's default at the load (R497, R499)
  trace : Option (BitVec 512) := none    -- trace configuration item (R426)
  traceOn : Bool := false
  traceAt : Option Nat := none           -- lock at which the trace starts
  tracePos : Nat := 0                    -- records written
  traceDropped : Nat := 0
  scalesDue : Option Nat := none         -- delayed-scaling writes still owed for this lock C_s (R422)
  scalesLeft : List (Nat × Nat) := []    -- (slot, new T) still to be written
  scalesBy : Nat := 0                    -- when the writes of step 4 are late (R422)
  -- update
  upd : Update := {}
  -- fabric
  formation : Option Formation := none
  rRel : Nat := 0                        -- ps
  version : Nat := 0                     -- major × 16 + minor; 0 on one device
  imageValue : Nat := 0
  digestMsgs : List DigestEntry := []
  digestBad : List Nat := []             -- shard entries whose set has mismatched at the last comparison (R344)
  abortBy : List (Nat × Nat) := []       -- (function, slot) of DOMAIN_ABORT commands that wait
  stepTarget : Option (Nat × Nat × Nat) := none   -- STEP: (function, slot, lock) (R427)
  -- replay (R435 to R439)
  mbn : Word := 0
  boundary : Option Release := none      -- release of the boundary lock B
  boundaryMbn : Word := 0
  recovery : Option Recovery := none
  holdReleases : Bool := false           -- the root withholds every release (R434)
  recoveries : Nat := 0
  aborting : Bool := false               -- ABORTED is entered once the sweep under way is finished (R350)
  replayed : Bool := false               -- this device discards the domain's units until REPLAY_MARK
  deriving DecidableEq, Repr

def Ctx.reset : Ctx := {}

/-! ### Entropy source and DRBG (10_stochastic.md, R290 to R296) -/

/-- ENT_STATUS.STATE. -/
inductive EntState where
  | startup | ok | restarting | failed
  deriving DecidableEq, Repr

/-- Who waits for DRBG output (R295): tenant set-up, a seed draw, host random bytes. -/
inductive EntUse where
  | keys (tenant : Nat)
  | seed (c f slot : Nat)
  | random (f slot bytes : Nat)
  | spdm (f : Nat) (need : SpdmNeed)
  deriving DecidableEq, Repr

/-- The entropy source and the DRBG it feeds. -/
structure Entropy where
  st : EntState := .startup
  restarts : Nat := 0
  rctFail : Bool := false
  aptFail : Bool := false
  startFail : Bool := false
  seeded : Bool := false
  passed : Word := 0
  failed : BitVec 16 := 0
  runBit : Bool := false                 -- the last raw bit, and how often it has recurred without a break
  runLen : Nat := 0
  pool : List (BitVec 384) := []         -- conditioned outputs not yet delivered, oldest first
  since : Nat := 0                       -- when the source was last started
  windowAt : Nat := 0                    -- when the last window ended
  drbg : Drbg := {}
  requests : Nat := 0                    -- generate requests since the last reseed
  reseedAt : Nat := 0
  waiting : List (EntUse × Bool) := []   -- requests in arrival order; true with prediction resistance
  resets : List (Nat × Nat) := []        -- (function, slot) of ENTROPY_RESET commands that wait
  deriving DecidableEq, Repr


/-! ### What a load leaves (11_program_contract.md) -/

/-- One tile's program as the loader wrote it: also its part of the replay copy (R298, R439). -/
structure TileImage where
  vx : Nat
  vy : Nat
  entry : Nat
  fill : List Word                       -- initial instruction-buffer fill, from index 0
  ranges : List (Nat × List Byte)        -- initial tile-memory ranges
  syncs : List (Nat × Nat)               -- handles bound, with their initial counts
  deriving DecidableEq, Repr

/-- What the device keeps of a region's load (R303, R306, R310, R439). -/
structure LoadRec where
  digest : Nat                           -- SHA-384 image digest, byte 0 least significant
  spill : Nat
  tiles : List TileImage
  replayable : Bool                      -- the provider reserve holds the replay copy
  copyBytes : Nat
  deriving DecidableEq, Repr

/-! ### Numerics monitor (15_loop_and_measurement.md, R419, R420) -/

/-- One slot of a granule's monitor unit: counters 0 to 31 the bins, 32 NONFINITE, 33 ZERO, 34 SAT, 35 WLOW, 36 WHIGH. -/
structure MonSlot where
  counts : Tbl Nat := []
  amaxe : Option Int := none             -- largest floor(log2 |v|) since the last snapshot
  measured : Option Int := none          -- the same over the measurement interval under way (R422)
  snap : Option Int := none              -- the last snapshot (R422)
  deriving DecidableEq, Repr


/-! ### Loop ports (15_loop_and_measurement.md) -/

/-- A record being received on a queue pair (R412, R413). -/
structure LoopRec where
  hdr : Nat                              -- the 64 B record header
  got : Nat                              -- bytes of the message received
  slot : Option Nat                      -- ring slot it lands in, none where it lands nothing
  cause : Nat := 0                       -- status code of a rejection, 0 while accepted
  discard : Bool := false                -- rejected from its header: the rest is discarded
  rest : List Byte := []                 -- payload bytes not yet a whole line
  lines : Nat := 0                       -- payload lines written
  unacked : List Nat := []               -- operation numbers of payload lines not yet acknowledged
  ended : Bool := false                  -- its last packet has come
  deriving DecidableEq, Repr

/-- A SEND of the device: a rejection answer, or a reply for a query slot of a stream (R412, R416). -/
structure LoopSend where
  bytes : List Byte
  slot : Option (Nat × Nat) := none      -- (stream, slot) of the query answered
  retries : Nat := 0                     -- RNR NAKs met
  deriving DecidableEq, Repr

/-- A connected queue pair (R409). -/
structure QPair where
  tenant : Nat
  stream : Nat                           -- 64 × wharf + stream entry
  index : Nat                            -- the tenant's queue-pair index
  rate : Nat := 1000000                  -- sending rate in millionths of full rate (R408)
  rateAt : Nat := 0                      -- when a CNP last halved it
  rcv : Option LoopRec := none
  sends : List LoopSend := []            -- in order; the head is being sent
  deriving DecidableEq, Repr

/-- A short answer that a Loop port has sent: what the transport or the connection manager says of a packet. -/
inductive LoopAnswer where
  | invalidRequest (qp : Nat)            -- Invalid Request NAK (R408)
  | rnr (qp : Nat)                       -- RNR NAK (R413)
  | cnp (qp : Nat)                       -- congestion notification (R408)
  | reply (qp : Nat)                     -- CM REP: the queue pair is connected
  | reject                               -- CM REJ, reason Consumer Reject (R409)
  deriving DecidableEq, Repr

/-- One Loop port (registers LLINK, LSTAT, LERRCNT). -/
structure LoopPort where
  up : Bool := false
  failed : Bool := false
  pfc : Bool := false
  prio : BitVec 3 := 0
  paused : Bool := false                 -- a PFC pause is in force (R418)
  stat : BitVec 5 := 0                   -- LSTAT
  icrc : BitVec 16 := 0
  cmReject : BitVec 16 := 0
  inputReject : BitVec 16 := 0
  replyDiscard : BitVec 16 := 0
  qps : Tbl QPair := []                  -- by queue-pair number 0 to 511
  nextOp : Nat := 0                      -- number of the next line written (the model's own)
  answers : List LoopAnswer := []        -- sent, oldest first
  deriving DecidableEq, Repr

/-- What the input stage and the Whippet keep of one Loop stream (R413 to R416, R424 kind 4). -/
structure LoopStream where
  batch : Nat := 0                       -- batches sealed since load
  queue : List Nat := []                 -- FULL query slots not yet sealed, in the order they became FULL
  full : Tbl (Nat × Nat) := []           -- query slot to (Loop port, queue pair) that delivered it; 512 for a pair since closed
  claimed : List Nat := []               -- slots a record is landing in
  reply : Option (Nat × Nat × List Byte) := none   -- reply being formed: (slot, length, bytes so far)
  accepted : Word := 0
  tooLong : Word := 0
  denied : Word := 0
  rnrs : Word := 0
  replies : Word := 0
  discarded : Word := 0
  deriving DecidableEq, Repr


/-! ### The Lockkeeper (14_mailboxes.md LK_STATE, 16_faults.md R447) -/

/-- LK_STATE. -/
inductive LkState where
  | booting | ready | restarting | failed
  deriving DecidableEq, Repr

/-- One core pair: when its warm restart began, and when its restarts of the last second began (R447). -/
structure LkPair where
  since : Option Nat := none
  mismatched : Bool := false             -- a lockstep mismatch began it
  recent : List Nat := []
  deriving DecidableEq, Repr

/-- The Lockkeeper's own state. -/
structure Lk where
  state : LkState := .booting
  served : Nat := 513                    -- function whose command it took last (R374)
  doorbells : Nat := 0                   -- doorbells that the device has accepted
  pair0 : LkPair := {}
  pair1 : LkPair := {}
  deriving DecidableEq, Repr


/-! ### Die clocks (17_power_clocks.md) -/

/-- CLK_DIEn.STATE. -/
inductive ClkState where
  | running | stopped | off
  deriving DecidableEq, Repr

/-- One die's clock (R454, R456, CLK_DIEn) and the fraction of a cycle carried from tick to tick. -/
structure DieClk where
  step : Nat := 34
  state : ClkState := .off
  throttled : Bool := false
  target : Nat := 34
  temp : Int := 0                        -- hottest reading, 1/16 °C
  throttledAt : Nat := 0
  belowSince : Option Nat := none        -- since when below 97 °C (R463)
  phase : Nat := 0                       -- thousandths of a cycle carried
  draw : Nat := 0                        -- measured draw in W, last interval
  deriving DecidableEq, Repr
/-! ### Power, coolant and telemetry (17_power_clocks.md, R423) -/

/-- A compute group's sample (R424 kind 0). -/
structure GroupSample where
  time : Nat
  throttling : Bool
  tripped : Bool
  off : Bool
  power : Nat
  temp : Int
  volt : Nat
  amps : Nat
  deriving DecidableEq, Repr

/-- The coolant's readings: temperatures in 1/16 °C, flows in 0.01 L/min, pressure drop in mbar. -/
structure Coolant where
  time : Nat := 0
  inlet : Int := 0
  outlet : Int := 0
  flowA : Int := 0
  flowB : Int := 0
  drop : Nat := 0
  deriving DecidableEq, Repr

/-- Power and clock registers of the device unit and what the governor keeps (R451 to R474). -/
structure Power where
  cap : Nat := 23000                     -- PWR_CAP.CAP_W
  effCap : Nat := 23000                  -- PWR_CAP.EFF_CAP_W
  pcomp : Nat := 20200                   -- PWR_CAP.PCOMP_W
  ceiling : Nat := 40                    -- Elastic ceiling of the profile
  pdOn : BitVec 20 := 1                  -- PWR_STATE.PD_ON
  flowOk : Bool := false
  derated : Bool := false
  overCap : Bool := false
  status : BitVec 8 := 0                 -- PWR_STATUS
  total : BitVec 16 := 0                 -- PWR_MEAS
  compute : BitVec 16 := 0
  fixedDies : BitVec 16 := 0
  xingOvr : BitVec 60 := 0               -- XING_OVR
  tripped : Tbl Nat := []                -- compute group to the time of its trip (R464)
  idleSince : Tbl Nat := []              -- compute group to the time since which no condition of R452 holds
  flowLostAt : Option Nat := none        -- flow was lost at (R469)
  shutOff : Bool := false                -- flow did not return: off until the next rise of PWR_GOOD
  lentIn : Tbl Nat := []                 -- by tenant: budget received (R461)
  coolant : Coolant := {}
  samples : Tbl (List GroupSample) := [] -- by compute group, newest first, at most 64 (R423)
  coolSamples : List Coolant := []       -- newest first, at most 64
  deriving DecidableEq, Repr


/-! ### Start, flash, profiles, calibration and clock (18_boot_firmware.md, 19_module.md) -/

/-- How far a start has come. -/
inductive BootPhase where
  | off                                  -- effective PWR_GOOD low
  | starting                             -- steps 1 to 10
  | ready
  | halted                               -- no bootable bank (R487)
  | service                              -- R521
  | sealFailed                           -- factory calibration failed its seal (R500)
  deriving DecidableEq, Repr

/-- One flash bank (R485, R486): its state record and image area; `factory` while the area holds the image that the module
left manufacture with, whose bytes the spec does not give. -/
structure Bank where
  valid : Bool := false
  pending : Bool := false
  fails : Nat := 0
  factory : Bool := false
  image : Mem := []
  deriving DecidableEq, Repr

/-- The verified firmware copy in SRAM. -/
structure Running where
  bank : Nat
  release : Nat
  svn : Nat
  digest : BitVec 384
  deriving DecidableEq, Repr

/-- An open firmware update (R488). -/
structure FwUpdate where
  port : Nat                             -- host port whose provider session opened it
  bank : Nat
  length : Nat
  written : List Nat := []               -- 4 KiB sectors written
  data : Mem := []                       -- what the host sent, for the read-back
  touched : Nat                          -- time of its last command
  deriving DecidableEq, Repr

/-- The backup domain: real-time clock and canary (R503). -/
structure Rtc where
  count : Nat := 0                       -- seconds since 2000-01-01 00:00:00
  frac : Nat := 0                        -- attoseconds of the present second
  valid : Bool := false
  canaryA : DWord := 0
  canaryB : DWord := 0
  cellMv : Nat := 0                      -- last measurement of the cell (R507)
  deriving DecidableEq, Repr

/-- An entry of the fault history (R449, R495, R506): a date of 0 is invalid. -/
structure FaultEntry where
  date : Nat
  dateValid : Bool
  what : Nat                             -- 1 requalified to LW2-S
  deriving DecidableEq, Repr

/-- What survives a fall of PWR_GOOD: flash, fuses and the backup domain. -/
structure Nonvolatile where
  bankA : Bank := { valid := true, factory := true }
  bankB : Bank := {}
  activeB : Bool := false                -- the active bank
  profiles : Tbl (BitVec 8192) := []     -- stored profiles; one not listed is the default profile (R497)
  profileFormat : Nat := 2               -- format stamps of the settings areas (R495)
  calFormat : Nat := 3
  historyFormat : Nat := 2
  userCal : Tbl Int := []                -- user calibration deltas by item
  calStored : List Nat := []             -- items changed since the last application (R502)
  calRestore : Bool := false             -- a restore of factory calibration is pending
  history : List FaultEntry := []
  requalified : Bool := false            -- the fuse of R496
  revoked : BitVec 4 := 0                -- revocation fuses of the vendor keys
  fuses : Nat := 0                       -- F (R484)
  rtc : Rtc := {}
  deriving DecidableEq, Repr

/-- What the environment lets a start find: copies of bank images that come out wrong (bit 2 × bank + attempt), settings
areas whose CRC fails (bit per area), granules that fail their self-test, whether both seals fail, and what the cell reads. -/
structure StartEnv where
  badCopies : Nat := 0
  badAreas : Nat := 0
  unusable : List Nat := []
  sealBad : Bool := false
  cellMv : Nat := 3000
  deriving DecidableEq, Repr

/-- An answer of the management endpoint (R519): an MCTP control response, a sensor's number and value, or unsupported. -/
inductive MctpAnswer where
  | control
  | sensor (id : Nat) (value : Int)
  | unsupported
  deriving DecidableEq, Repr

/-- The input contacts of the sideband (R516), at their last observed levels; before the first power they stand where the
module's pulls hold them. [DESIGN CHOICE: log 164] -/
structure Pins where
  pwrGood : Bool := false
  resetN : Bool := true
  seat : Bool := false                   -- the loop from SEAT_A to SEAT_B is closed
  perstN : Bool × Bool := (false, false) -- PERST_A_N and PERST_B_N
  slotId : BitVec 4 := 0
  svcEnN : Bool := true
  deriving DecidableEq, Repr

/-- The start and what it leaves in force. -/
structure Boot where
  aux : Bool := true                     -- the auxiliary supply is present
  vbat : Bool := false                   -- VBAT is present
  pins : Pins := {}
  pg : Bool := false                     -- the effective PWR_GOOD (R513)
  phase : BootPhase := .off
  riseAt : Nat := 0
  waited : Nat := 0                      -- time spent waiting for flow verification (R480)
  running : Option Running := none
  fallback : Option Nat := none          -- bank that was first in the order and was given up
  early : List Event := []               -- events that wait for READY (R486, R495, R505)
  profsel : Nat := 0
  profile : BitVec 8192 := 0             -- the profile in force
  profileIndex : Nat := 0
  env : StartEnv := {}
  watchFrom : Nat := 0                   -- when the start watchdog began
  failsBefore : Nat := 0                 -- failed starts of the running bank before this start (R486)
  defaulted : List Nat := []             -- settings areas left in flash with defaults in their place (R495)
  calUsed : Tbl Int := []                -- user deltas applied (R502)
  restore : List (Nat × Nat) := []       -- (function, slot) of CAL_RESTORE_FACTORY commands that wait
  update : Option FwUpdate := none
  attnUntil : Nat := 0                   -- ATTN_N is pulsed low until (R520)
  cellAt : Nat := 0                      -- when the cell was last measured
  configAnswers : List (Nat × Bool) := []   -- (host port, answered with retry status), oldest first (R517)
  sensors : List Int := []               -- PLDM sensors in the order of R519, as last updated
  mctp : List MctpAnswer := []           -- answers of the management endpoint, oldest first
  notVerifiedAt : Nat := 0               -- when the last COOLANT event of a waiting start was posted
  deriving DecidableEq, Repr


/-! ### The whole block -/

/-- The whole block. `pending` is the queue of waiting commands, first in first out; `free` counts the free values
drawn so far (the model's own field); tables list only units that differ from their reset value. [DESIGN CHOICE: log 154] -/
structure State where
  pending : List Instr := []
  now : Nat := 0                         -- time base, ns (CK56)
  free : Nat := 0
  dies : Tbl DieClk := []                -- CLK_DIEn and the die's clock, by die
  tiles : Tbl Tile := []                 -- by physical tile index (R5)
  routers : Tbl Router := []             -- by physical tile index
  ctxs : Tbl Ctx := []                   -- by device context
  tenants : Tbl Tenant := []
  fns : Tbl Fn := []                     -- by 257 × host port + function
  hostMem : Mem := []
  vfs : Nat × Nat := (0, 0)              -- VF Enable of host ports A and B: functions VF1 to VFn exist
  hold : Mem := []                       -- plaintext of the Hold's data lines, by 64 × line + byte
  wharves : Tbl Wharf := []              -- by wharf identifier
  egress : Tbl (List Barge) := []        -- barges queued at a canal endpoint, oldest first (R207, R223)
  transit : List Barge := []             -- barges on the canal core, in the order they were sent
  canalErr : Tbl (Nat × Nat) := []       -- by receiving endpoint: barge headers corrected, link faults (R208)
  holdMeta : Tbl HoldMeta := []          -- by data line
  stackTbl : Tbl Stack := []               -- H00 to H31
  quadrants : Tbl Quadrant := []         -- 0 HNW, 1 HNE, 2 HSW, 3 HSE
  granules : Tbl GranState := []         -- by wharf identifier; one not listed is CLEAN
  orderedS : Bool := false               -- ordered grade: false LW2-X, true LW2-S
  gradeS : Bool := false                 -- current grade
  reserveGib : Nat := 64                 -- provider reserve (R357)
  loads : Tbl LoadRec := []              -- by tenant
  mons : Tbl MonSlot := []               -- monitor slots, by 16 × physical granule + slot
  subst : Tbl Nat := []                  -- failed physical granule to the spare that stands in for it
  detours : Tbl Detour := []             -- detour paths 0 to 31 in use
  ports : Tbl GPort := []                -- 0 to 47 G00 to G47, 48 to 55 B0 to B7
  fabric : Fabric := {}
  lk : Lk := {}
  entropy : Entropy := {}
  power : Power := {}
  boot : Boot := {}
  nv : Nonvolatile := {}
  crossLend : Bool := false              -- DEV_POLICY.CROSS_LEND
  loops : Tbl LoopPort := []             -- L0 to L7
  streams : Tbl LoopStream := []         -- Loop streams, by 64 × wharf + stream entry
  ushd : Tbl (BitVec 512) := []          -- shard entries, the same in all 32 HUUs (R250)
  replSets : Tbl (List Nat) := []        -- replication sets 0 to 63, the same in every Hold controller (R229)
  ugrp : Tbl (List Byte) := []           -- group records, by 64 × tenant + group; one not listed is zero
  deriving DecidableEq, Repr

/-- Who stops and why. -/
inductive Fault where
  /-- An operand names a unit the part does not have (a tile beyond 9,215, a port beyond 55). Raised by every command
  with such an operand. Safe: no such event can come about. -/
  | noSuchUnit
  deriving DecidableEq, Repr

/-- Commands without a meaning. -/
inductive Refusal where
  /-- Raised by a dispatch arm that has no meaning yet, with the row's mnemonic. Safe: the machine stops. -/
  | notModelled (mnemonic : String)
  deriving DecidableEq, Repr

/-- The outcome of a step of the block. -/
abbrev Out := Host.Outcome State Fault Refusal

/-- The block before any start: supplies off but for the auxiliary supply, every register at its reset value.
[DESIGN CHOICE: log 5, 13] -/
def State.reset : State := {}

end Sys2Proof.Machine
end

