-- ==== Sys2Proof/Machine/Ops.lean ====
section
/-! DEFINITION. Named operations over the state: units and their places, free values, events and results, checked
tile memory, sync objects, tile faults. -/

namespace Sys2Proof.Machine

/-! ### Places (R5, R19) -/

def tileX (t : Nat) : Nat := t % 128
def tileY (t : Nat) : Nat := t / 128
/-- The wharf identifier of a tile's granule. -/
def granOf (t : Nat) : Nat := 32 * (tileY t / 4) + tileX t / 4
/-- The local index of a tile in its granule. -/
def localIdx (t : Nat) : Nat := 4 * (tileY t % 4) + tileX t % 4
/-- The tile of a granule with a local index. -/
def tileAt (g i : Nat) : Nat := 128 * (4 * (g / 32) + i / 4) + 4 * (g % 32) + i % 4
def dieOf (t : Nat) : Nat := 8 * (tileY t / 12) + tileX t / 16
def dieOfGran (g : Nat) : Nat := 8 * (g / 32 / 3) + g % 32 / 4
def groupOfDie (d : Nat) : Nat := d / 8 / 2 * 4 + d % 8 / 2
def numTiles : Nat := 9216
def numGranules : Nat := 576
def numCtxs : Nat := 1024
def numTenants : Nat := 256

/-! ### Reading and replacing units -/

def State.tile (s : State) (t : Nat) : Tile := Tbl.get Tile.reset s.tiles t
def State.setTile (s : State) (t : Nat) (v : Tile) : State := { s with tiles := s.tiles.set t v }
def State.modTile (s : State) (t : Nat) (f : Tile → Tile) : State := s.setTile t (f (s.tile t))
def State.router (s : State) (t : Nat) : Router := Tbl.get Router.reset s.routers t
def State.setRouter (s : State) (t : Nat) (v : Router) : State := { s with routers := s.routers.set t v }
def State.ctx (s : State) (c : Nat) : Ctx := Tbl.get Ctx.reset s.ctxs c
def State.setCtx (s : State) (c : Nat) (v : Ctx) : State := { s with ctxs := s.ctxs.set c v }
def State.modCtx (s : State) (c : Nat) (f : Ctx → Ctx) : State := s.setCtx c (f (s.ctx c))
def State.tenant (s : State) (n : Nat) : Tenant := Tbl.get {} s.tenants n
def State.setTenant (s : State) (n : Nat) (v : Tenant) : State := { s with tenants := s.tenants.set n v }
def State.modTenant (s : State) (n : Nat) (f : Tenant → Tenant) : State := s.setTenant n (f (s.tenant n))
def State.fn (s : State) (f : Nat) : Fn := Tbl.get {} s.fns f
def State.setFn (s : State) (f : Nat) (v : Fn) : State := { s with fns := s.fns.set f v }
def State.modFn (s : State) (f : Nat) (g : Fn → Fn) : State := s.setFn f (g (s.fn f))
def State.wharf (s : State) (g : Nat) : Wharf := Tbl.get Wharf.reset s.wharves g
def State.setWharf (s : State) (g : Nat) (v : Wharf) : State := { s with wharves := s.wharves.set g v }
def State.modWharf (s : State) (g : Nat) (f : Wharf → Wharf) : State := s.setWharf g (f (s.wharf g))
def State.stack (s : State) (k : Nat) : Stack := Tbl.get {} s.stackTbl k
def State.setStack (s : State) (k : Nat) (v : Stack) : State := { s with stackTbl := s.stackTbl.set k v }
def State.port (s : State) (p : Nat) : GPort := Tbl.get GPort.reset s.ports p
def State.setPort (s : State) (p : Nat) (v : GPort) : State := { s with ports := s.ports.set p v }
def State.modPort (s : State) (p : Nat) (f : GPort → GPort) : State := s.setPort p (f (s.port p))
def State.gran (s : State) (g : Nat) : GranState := Tbl.get .clean s.granules g

def State.die (s : State) (d : Nat) : DieClk := Tbl.get {} s.dies d
def State.setDie (s : State) (d : Nat) (v : DieClk) : State := { s with dies := s.dies.set d v }
/-- Is the tile clock of a die running (CLK_DIEn.STATE)? -/
def State.clocked (s : State) (d : Nat) : Bool := (s.die d).state == .running

/-- A free value of `w` bits: an opaque function of a counter that advances with each (the spec leaves the value open). -/
def State.draw (s : State) (w : Nat) : State × BitVec w := ({ s with free := s.free + 1 }, Config.freeBits s.free w)

/-- Tenant of a granule's region. -/
def State.tenantOfGran (s : State) (g : Nat) : Option Nat :=
  match s.gran g with
  | .owned n => some n
  | _ => none

/-- Is a domain running in the sense of R64: FORMING, RUNNING or HALTED? -/
def DomState.live : DomState → Bool
  | .forming | .running | .halted => true
  | _ => false

/-- LKT_CTRL.MEMBER: the tile is a member of a running domain. -/
def State.member (s : State) (t : Nat) : Bool :=
  match (s.tile t).home with
  | some c => (s.ctx c).state.live
  | none => false

/-! ### PCIe functions -/

/-- Function number on its port: 0 the PF, n VFn. -/
def fnNum (f : Nat) : Nat := f % 257
def fnPort (f : Nat) : Nat := f / 257
def fnOf (port num : Nat) : Nat := 257 * port + num
/-- The functions that exist for VF number `num` (0: the PF) on both host ports. -/
def State.fnsOf (s : State) (num : Nat) : List Nat :=
  (if num ≤ s.vfs.1 then [fnOf 0 num] else []) ++ (if num ≤ s.vfs.2 then [fnOf 1 num] else [])

/-! ### Events (R400, R401) -/

/-- The 64 bytes of an event entry. -/
def eventBytes (phase : Bool) (evseq : Nat) (e : Event) : Nat :=
  packLE [(0, 2, e.ty), (2, 1, b2n phase), (3, 1, e.sub), (4, 4, evseq), (8, 8, e.time), (16, 2, e.tenant),
          (18, 2, e.domain), (24, 40, e.body)]

/-- Is a ring full: the next tail index equals EQ_HEAD (R400)? -/
def eqFull (q : EventQueue) (head : Nat) : Bool := (q.tail + 1) % 2 ^ q.logLen == head % 2 ^ q.logLen

/-- MSI-X vector `v` is sent, or stays pending while its entry is masked (R378). [PRESUMED: log 171] -/
def Fn.vector (x : Fn) (v : Nat) : Fn :=
  let masked := if v = 0 then x.vec0.masked else x.vec1.masked
  if masked then { x with pba := x.pba ||| BitVec.ofNat 2 (2 ^ v) } else { x with msix := x.msix ++ [v] }

/-- Writes one entry at the tail of a ring that is not full, with MSI-X vector 1 where asked for. -/
def State.eqWrite (s : State) (f : Nat) (q : EventQueue) (e : Event) : State :=
  let fn := s.fn f
  let n := q.tail + 1
  let q' : EventQueue := { q with
    tail := n % 2 ^ q.logLen, evseq := q.evseq + 1, phase := if n = 2 ^ q.logLen then !q.phase else q.phase }
  let s := { s with hostMem := s.hostMem.writeLE (q.base + 64 * q.tail) 64 (eventBytes q.phase q.evseq e) }
  let fn := { fn with eq := some q' }
  s.setFn f (if fn.irqEvt then fn.vector 1 else fn)

/-- Counts a lost event (R401). -/
def Fn.lose (fn : Fn) : Fn := { fn with lost := fn.lost + 1, eqOverflow := true }

/-- The OVERFLOW entry that precedes the next entry after a loss (R401). -/
def overflowEvent (now lost : Nat) : Event :=
  { ty := 2, sub := 0, time := now, tenant := 0xFFFF, domain := 0xFFFF, body := lost % 2 ^ 32 }

/-- Posts an event to one function: into its ring, held while it has none, or lost (R401). -/
def State.postTo (s : State) (f : Nat) (e : Event) : State :=
  let fn := s.fn f
  match fn.eq with
  | none => if fn.held.length < 64 then s.setFn f { fn with held := fn.held ++ [e] } else s.setFn f fn.lose
  | some q =>
    if eqFull q fn.eqHead then s.setFn f fn.lose
    else if fn.lost = 0 then s.eqWrite f q e
    else
      let s := s.eqWrite f q (overflowEvent s.now fn.lost)
      let fn := { s.fn f with lost := 0 }
      let s := s.setFn f fn
      match fn.eq with
      | none => s
      | some q => if eqFull q fn.eqHead then s.setFn f fn.lose else s.eqWrite f q e

/-- Posts an event to every function of VF number `num`. -/
def State.postNum (s : State) (num : Nat) (e : Event) : State := (s.fnsOf num).foldl (fun s f => s.postTo f e) s

/-- An event of now. -/
def State.event (s : State) (ty sub tenant domain body : Nat) : Event :=
  { ty := ty, sub := sub, time := s.now, tenant := tenant, domain := domain, body := body }

/-- Posts an event to a tenant's functions on both ports. -/
def State.postTenant (s : State) (n ty sub domain body : Nat) : State :=
  s.postNum (n + 1) (s.event ty sub n domain body)

/-- Posts an event to the PF of both ports. -/
def State.postPF (s : State) (ty sub body : Nat) : State := s.postNum 0 (s.event ty sub 0xFFFF 0xFFFF body)

/-- Posts an event to every function of both ports. -/
def State.postAll (s : State) (ty sub body : Nat) : State :=
  (List.range (max s.vfs.1 s.vfs.2 + 1)).foldl (fun s n => s.postNum n (s.event ty sub 0xFFFF 0xFFFF body)) s

/-- DOMAIN of an event about a domain: its identifier, 0xFFFF for one that is confined to the device and has none (R341, R400). -/
def Ctx.eventId (cx : Ctx) : Nat := if cx.spans then cx.domainId else 0xFFFF

/-- Field builder of event bodies: (byte of the entry, length, value). -/
def body (l : List (Nat × Nat × Nat)) : Nat := packLE (l.map (fun p => (p.1 - 24, p.2)))

/-- The capability records of the functions of number `num` change: CAPGEN counts before and after (R397). -/
def State.capChange (s : State) (num : Nat) : State :=
  (s.fnsOf num).foldl (fun s f => s.modFn f (fun x => { x with capgen := x.capgen + 2 })) s

/-- The capability records of every function change. -/
def State.capChangeAll (s : State) : State :=
  (List.range (max s.vfs.1 s.vfs.2 + 1)).foldl (fun s n => s.capChange n) s

/-! ### Deferred results (R391, R392) -/

/-- Decides the outcome of the running generation of a slot, named as slot + 16 × the function's epoch;
DEFERRED_COMMAND_COMPLETE publishes it. [DEDUCED: log 152] -/
def State.settle (s : State) (f slot status detail flags len : Nat) (data : Nat) : State :=
  let fn := s.fn f
  let sl := Tbl.get {} fn.slots (slot % 16)
  if slot / 16 = fn.epoch ∧ sl.running ∧ sl.ready.isNone then
    s.setFn f { fn with slots := fn.slots.set (slot % 16) { sl with
      ready := some { gen := sl.gen, code := sl.code, status := status, detail := detail, flags := flags, len := len
                      data := BitVec.ofNat 1792 data } } }
  else s

/-- Status codes (R389). -/
def stOK : Nat := 0
def stBusy : Nat := 1
def stNotReady : Nat := 2
def stVersion : Nat := 3
def stNoCap : Nat := 4
def stDenied : Nat := 5
def stNoResource : Nat := 6
def stDoesNotFit : Nat := 7
def stNeedsQuiesce : Nat := 8
def stMismatch : Nat := 9
def stIntegrity : Nat := 10
def stEntropy : Nat := 11
def stTimeInvalid : Nat := 12
def stBadDate : Nat := 13
def stImage : Nat := 14
def stRollback : Nat := 15
def stTooLong : Nat := 16
def stDigest : Nat := 17
def stTenantFault : Nat := 18
def stAborted : Nat := 19

/-! ### Traces (R426) -/

/-- Does the trace filter of a context take events of the tile? -/
def traceTakes (cfg : Nat) (ten : Tenant) (t : Tile) : Bool :=
  let gx := t.vx / 4 - ten.ox
  let gy := t.vy / 4 - ten.oy
  let f (o : Nat) := fieldLE cfg o 2
  decide (f 24 ≤ gx) && decide (gx < f 24 + f 28) && decide (f 26 ≤ gy) && decide (gy < f 26 + f 30)

/-- Writes one 32-byte trace record of tile `t` where its domain's trace selects the event, or counts it dropped.
[DEDUCED: log 28, 143] -/
def State.trace (s : State) (t event engine data : Nat) : State :=
  let tl := s.tile t
  match tl.home with
  | none => s
  | some c =>
    let cx := s.ctx c
    let ten := s.tenant (c / 4)
    match cx.trace with
    | none => s
    | some cfgv =>
      let cfg := cfgv.toNat
      if cx.traceOn && bit (fieldLE cfg 16 4) event && traceTakes cfg ten tl then
        let cap := 2 * fieldLE cfg 8 8
        if bit (fieldLE cfg 20 1) 0 && decide (cap ≤ cx.tracePos) then
          let s := s.setCtx c { cx with traceDropped := cx.traceDropped + 1 }
          if cx.traceDropped = 0 then s.postTenant (c / 4) 0x72 3 cx.eventId (body [(24, 8, cx.tracePos), (32, 8, 1)]) else s
        else
          let pos := cx.tracePos % cap
          let addr := 64 * (ten.baseGib * 2 ^ 24 + fieldLE cfg 0 8) + 32 * pos
          let rec_ := packLE [(0, 8, s.now), (8, 1, tl.vx), (9, 1, tl.vy), (10, 1, event), (11, 1, engine),
                              (12, 6, cx.index), (20, 12, data)]
          let s := { s with hold := s.hold.writeLE addr 32 rec_ }
          let s := s.setCtx c { cx with tracePos := cx.tracePos + 1 }
          if bit (fieldLE cfg 20 1) 0 && decide (cap = cx.tracePos + 1) then
            s.postTenant (c / 4) 0x72 2 cx.eventId (body [(24, 8, cx.tracePos + 1), (32, 8, cx.traceDropped)])
          else s
      else s

/-! ### Tile memory and its check bits (R90 to R93) -/

/-- An upset strikes a word: a second single-bit error, or an uncorrectable one, breaks it. -/
def Tile.upset (t : Tile) (u : Nat × Bool) : Tile :=
  match t.chk.find u.1 with
  | some .poisoned => t
  | some .broken => t
  | some .corrected => { t with chk := t.chk.set u.1 .broken }
  | none => { t with chk := t.chk.set u.1 (if u.2 then .broken else .corrected) }

/-- The environment's upsets of tile memory, before a read. -/
def Tile.upsets (t : Tile) (ups : List (Nat × Bool)) : Tile := ups.foldl Tile.upset t

/-- What a read of word `w` found: its data are good, or it failed; `fresh` where it was not poisoned before. -/
inductive WordRead where
  | good
  | failed (fresh : Bool)
  deriving DecidableEq, Repr

/-- The check of one word at a read (R90, R91). -/
def Tile.checkWord (t : Tile) (w : Nat) : Tile × WordRead :=
  match t.chk.find w with
  | none => (t, .good)
  | some .corrected =>
    ({ t with ceCount := if t.ceCount = BitVec.allOnes 32 then t.ceCount else t.ceCount + 1
              memErrAddr := BitVec.ofNat 64 (8 * w), memCorrected := true }, .good)
  | some .broken =>
    ({ t with chk := t.chk.set w .poisoned
              ueCount := if t.ueCount = BitVec.allOnes 16 then t.ueCount else t.ueCount + 1
              memErrAddr := BitVec.ofNat 64 (8 * w + 2 ^ 22), memPoison := true }, .failed true)
  | some .poisoned =>
    ({ t with memErrAddr := BitVec.ofNat 64 (8 * w + 2 ^ 22), memPoison := true }, .failed false)

/-- The checks of `n` successive words from `w`: the tile after them, and the first failing word. All are checked in ascending
order, so that MEM_ERR_ADDR ends at the last bad one. [DESIGN CHOICE: log 182] -/
def Tile.checkWords (t : Tile) (w : Nat) : Nat → Tile × Option (Nat × Bool)
  | 0 => (t, none)
  | n + 1 =>
    let (t1, r) := t.checkWord w
    let (t2, later) := t1.checkWords (w + 1) n
    match r with
    | .failed fresh => (t2, some (8 * w, fresh || (later.map Prod.snd).getD false))
    | .good => (t2, later)

/-- The data of a checked span. -/
def Tile.readMem (t : Tile) (addr n : Nat) : Nat := t.mem.readLE addr n

/-- A write of `n` bytes that covers whole words: new data and check bits, poison cleared (R93). -/
def Tile.writeWhole (t : Tile) (addr n x : Nat) : Tile :=
  { t with mem := t.mem.writeLE addr n x
           chk := t.chk.filter (fun p => ¬ (addr / 8 ≤ p.1 ∧ p.1 < (addr + n) / 8)) }

/-- A write of part of a good word (R92). -/
def Tile.writePart (t : Tile) (addr n x : Nat) : Tile := { t with mem := t.mem.writeLE addr n x, chk := t.chk.del (addr / 8) }

/-- Marks a word poisoned (R187, R234). -/
def Tile.poisonWord (t : Tile) (w : Nat) : Tile := { t with chk := t.chk.set w .poisoned }

/-- The generator block once cycles have passed in which nothing wrote to it: GEN_OUT shows its contents (R289). -/
def GenBlock.settled (g : GenBlock) : GenBlock := { g with prev1 := (g.genIn, g.genPos), prev2 := (g.genIn, g.genPos) }

/-! ### Sync objects (R76 to R78) -/

/-- The count of the object bound to a handle, 0 when unbound (SYNC_COUNTh). -/
def Tile.syncCount (t : Tile) (h : Nat) : Nat :=
  match t.sync.find h with
  | some o => o.count.toNat
  | none => 0

/-- A satisfied wait subtracts its amount. -/
def Tile.syncTake (t : Tile) (h n : Nat) : Tile :=
  match t.sync.find h with
  | some o => { t with sync := t.sync.set h { o with count := o.count - BitVec.ofNat 16 n } }
  | none => t

/-- A signal adds its amount, stopping at 65,535 with SYNC_OVERFLOW and the handle (R78). -/
def Tile.syncSignal (t : Tile) (h n : Nat) : Tile :=
  match t.sync.find h with
  | none => t
  | some o =>
    let c := o.count.toNat + n
    if 65535 < c then
      { t with sync := t.sync.set h { o with count := 65535 }, syncOverflow := true
               ovfHandle := if t.syncOverflow then t.ovfHandle else BitVec.ofNat 8 h }
    else { t with sync := t.sync.set h { o with count := BitVec.ofNat 16 c } }

/-- s32(ACNT[n] − target) ≥ 0 (R83). -/
def Tile.acntReached (t : Tile) (n target : Nat) : Bool :=
  (Tbl.get 0#32 t.acnt n - BitVec.ofNat 32 target).toNat < 2 ^ 31

/-- A committed flit counts on counter `n`, modulo 2^32 (R82). -/
def Tile.countFlit (t : Tile) (n : Nat) : Tile := { t with acnt := Tbl.put 0#32 t.acnt n (Tbl.get 0#32 t.acnt n + 1) }

end Sys2Proof.Machine
end

