-- ==== Sys2Proof/Machine/Measure.lean ====
section
/-! DEFINITION. A tenant's region, its block of registers, and what its measurements hold (13_tenancy.md R355, R369). -/

namespace Sys2Proof.Machine

/-! ### Regions (R304, R356) -/

/-- Virtual granules of a rectangle. -/
def rectGrans (ox oy w h : Nat) : List Nat := (List.range h).flatMap (fun j => (List.range w).map (fun i => 32 * (oy + j) + ox + i))

/-- Granules of a tenant's region, virtual. -/
def Tenant.grans (t : Tenant) : List Nat := rectGrans t.ox t.oy t.width t.height

/-- The physical granule that serves a virtual granule. -/
def State.physGran (s : State) (v : Nat) : Nat := (s.subst.find v).getD v

/-- Physical granules of a tenant's region. -/
def State.tenantGrans (s : State) (n : Nat) : List Nat := (s.tenant n).grans.map s.physGran

/-! ### The tenant block (R355) and HWINt (R224) -/

def TenState.code : TenState → Nat
  | .free => 0
  | .settingUp => 1
  | .active => 2
  | .resetting => 3
  | .releasing => 4

/-- The five registers of the block; during set-up only STATE is written. -/
def Tenant.block (t : Tenant) : List Nat :=
  let st := pack [(0, 3, t.st.code), (3, 1, b2n t.scrubFailed), (8, 8, t.subst)]
  if t.st = .settingUp then [pack [(0, 3, 1), (3, 1, b2n t.scrubFailed)], 0, 0, 0, 0]
  else [st, pack [(0, 5, t.ox), (8, 4, t.oy), (16, 6, t.width), (24, 5, t.height)],
    pack [(0, 9, t.canal), (16, 9, t.basin), (32, 6, t.syncQ)], pack [(0, 15, t.shard), (16, 16, t.loopQp), (32, 16, t.power)],
    pack [(0, 1, b2n t.debug), (1, 1, b2n t.lendOut), (2, 1, b2n t.lendIn)]]

def Tenant.hwin (t : Tenant) : Nat := if t.keys.isNone then 0 else pack [(0, 11, t.baseGib), (12, 11, t.sizeGib)]

/-- The block and HWINt as the bytes of a response. [DEDUCED: log 107] -/
def Tenant.report (t : Tenant) : Nat := packLE ((List.range 6).map (fun i => (8 * i, 8, (t.block ++ [t.hwin]).getD i 0)))

/-! ### What the tenant's measurements hold (R369) -/

/-- Sync objects that a tenant's region may hold on each die (R354). -/
def State.dieQuotas (s : State) (n : Nat) : List Nat :=
  let gs := s.tenantGrans n
  (List.range 48).map (fun d => 16 * (s.tenant n).syncQ * (gs.filter (fun g => dieOfGran g == d)).length)

/-- Measurement 5 is taken anew: at set-up, substitution and policy change. -/
def State.measureTenant (s : State) (n : Nat) : State :=
  let l := (s.tenant n).block ++ [(s.tenant n).hwin] ++ s.dieQuotas n
  s.modTenant n (fun t => { t with meas5 := l })

/-- Measurement 6 is taken anew: at each load and each move to Elastic. -/
def State.measureRegion (s : State) (n : Nat) : State :=
  let l := s.loads.find n
  let doms := (List.range 4).flatMap (fun k =>
    let cx := s.ctx (4 * n + k)
    if cx.loaded then [b2n cx.elastic, b2n cx.movedElastic] else [])
  s.modTenant n (fun t => { t with meas6 := [(l.map LoadRec.digest).getD 0, (l.map LoadRec.spill).getD 0] ++ doms })

/-- The index of a measurement. -/
def Meas.index : Meas → Nat
  | .digest i _ => i
  | .raw i _ => i

/-- A measurement as a block of the DMTF format: index, specification 1, size, then the value's type, its size and the value.
The type codes are those of SPDM 1.2; a raw value lists its numbers as 64-bit words. [PRESUMED: log 178] -/
def Meas.block (m : Meas) : List Byte :=
  let ty := match m with
    | .digest 1 _ => 0x00
    | .digest _ _ => 0x01
    | .raw 4 _ => 0x82
    | .raw _ _ => 0x83
  let v := match m with
    | .digest _ d => bytesLE 48 d.toNat
    | .raw 6 (d :: l) => bytesLE 48 d ++ l.flatMap (bytesLE 8)
    | .raw _ l => l.flatMap (bytesLE 8)
  bytesLE 1 m.index ++ bytesLE 1 1 ++ bytesLE 2 (v.length + 3) ++ bytesLE 1 ty ++ bytesLE 2 v.length ++ v

end Sys2Proof.Machine
end

