-- ==== Sys2Proof/Machine/Recover.lean ====
section
/-! DEFINITION. Aborting a domain (R58, R349, R350), tile faults (R95) and the hardware fault of a granule (R430 to
R434, R439). -/

namespace Sys2Proof.Machine

/-- The listed tiles whose domain is context `c`. -/
def State.tilesOf (s : State) (c : Nat) : List Nat := (s.tiles.filter (fun p => p.2.home == some c)).map Prod.fst

/-- Applies `f` to every tile of a domain. -/
def State.modTilesOf (s : State) (c : Nat) (f : Tile → Tile) : State :=
  { s with tiles := s.tiles.map (fun p => if p.2.home == some c then (p.1, f p.2) else p) }

/-- Posts a DOMAIN event (R402): subtype `sub`, further body bytes `more`. -/
def State.domainEvent (s : State) (c sub : Nat) (more : Nat) : State :=
  let cx := s.ctx c
  let b := body [(24, 6, cx.index)] + more
  let s := s.postTenant (c / 4) 0x10 sub cx.eventId b
  if sub = 2 ∨ sub = 5 then s.postNum 0 (s.event 0x10 sub (c / 4) cx.eventId b) else s

/-- An engine stops: the order under way is abandoned and no signal it owes is applied (R95). -/
def Engine.abandon (e : Engine) : Engine := { e with exec := none, owed := [] }

/-- Every engine of a tile stops (R95). -/
def Tile.stopEngines (t : Tile) : Tile :=
  { t with mxe := t.mxe.abandon, vxe := t.vxe.abandon, xe := t.xe.abandon, sending := none, recvWait := false }

/-- What happened this lock cycle to every member of a domain here, bit per cause code of R51: recovery or replay, the switch of
its tree, releases shown under the time-drift rule, and a release that a replayed block made late (R321). -/
def State.domainCauses (s : State) (cx : Ctx) : BitVec 8 :=
  cx.causes ||| (if cx.recovery.isSome || cx.switching || (cx.spans && s.fabric.drifting) then 32#8 else 0#8)

/-- The commands that wait on a domain complete with ABORTED (R349, R404, R427). -/
def State.abortWaiters (s : State) (c : Nat) : State :=
  let cx := s.ctx c
  let s := match cx.staged with
    | some g => s.settle g.fn g.slot stAborted 0 0 0 0
    | none => s
  let s := match cx.formation with
    | some g => s.settle g.fn g.slot stAborted 0 0 0 0
    | none => s
  let s := cx.abortBy.foldl (fun s w => s.settle w.1 w.2 stAborted 0 0 0 0) s
  match cx.stepTarget with
  | some (f, sl, _) => s.settle f sl stAborted 0 0 0 0
  | none => s

/-- The domain enters ABORTED: nothing staged, held or gathered remains, and its tiles execute nothing. -/
def State.enterAborted (s : State) (c : Nat) : State :=
  let s := s.abortWaiters c
  let s := s.modCtx c (fun cx => { cx with
    state := .aborted, aborting := false, staged := none, formation := none, stepTarget := none, abortBy := [], release := none
    heldRelease := none, arrivals := [], huuArrived := [], childMarkers := [], lkArrived := false, haltReq := false
    abortReq := false, recovery := none, holdReleases := false, scalesDue := none, scalesLeft := [], gatherSent := false
    firstArrival := none, lateAt := [], causes := 0, upd := { cx.upd with run := none, haltWanted := false } })
  let s := s.modTilesOf c (fun t => { t.stopEngines with
    faulted := false, arrived := false, holdRelease := false, core := { t.core with act := .off } })
  s.domainEvent c 5 0

/-- Has the sweep of the domain's step begun: is the release that starts it visible to the HUUs (R259, R350)?
[DEDUCED: log 150] -/
def Ctx.sweepBegun (cx : Ctx) : Bool :=
  match cx.upd.run with
  | some r => !r.skip && decide (r.lock + (if cx.upd.fpass then 1 else 0) ≤ cx.huuIndex)
  | none => false

/-- The domain ends with ABORTED, after the sweep that has begun (R350). -/
def State.abortCtx (s : State) (c : Nat) : State :=
  let cx := s.ctx c
  if cx.state = .aborted then s
  else if cx.sweepBegun then s.setCtx c { cx with aborting := true }
  else s.enterAborted c

/-! ### Dies of Timed domains (R48, R455) -/

/-- A die's target step, which a throttled die does not exceed (R454, R463); a member tile whose die runs below STEP 34 in
this lock cycle reports cause 3 (R51). -/
def State.setTarget (s : State) (d k : Nat) : State :=
  let x := s.die d
  let x := { x with target := k, step := if x.throttled then min x.step k else k }
  let s := s.setDie d x
  if x.step < 34 then { s with tiles := s.tiles.map (fun p =>
    if dieOf p.1 = d ∧ p.2.home.isSome then (p.1, { p.2 with retryCause := p.2.retryCause ||| 8#8 }) else p) } else s

/-- Does a Timed domain that runs hold the die at 1.45 GHz (R48)? -/
def State.timedOn (s : State) (c d : Nat) : Bool :=
  !(s.ctx c).elastic && (s.ctx c).state.live && (s.tilesOf c).any (fun t => dieOf t == d)

/-- Every die that carries a member tile of a Timed domain is held at 1.45 GHz, STEP 34, from the moment the domain runs (R48). -/
def State.holdTimed (s : State) (c : Nat) : State :=
  (List.range 48).foldl (fun s d => if s.timedOn c d then s.setTarget d 34 else s) s

/-! ### Substitution (R431 to R434) -/

/-- First spare granule row of the grade (R7). -/
def State.spareRow (s : State) : Nat := if s.gradeS then 14 else 16

/-- The virtual granule that a physical granule serves. -/
def State.virtGran (s : State) (g : Nat) : Nat :=
  match s.subst.find? (fun p => p.2 == g) with
  | some p => p.1
  | none => g

/-- Usable spares that stand in for no granule (R433). -/
def State.freeSpares (s : State) : List Nat :=
  (List.range numGranules).filter (fun g => decide (s.spareRow ≤ g / 32) && s.gran g == .clean && !s.subst.any (fun p => p.2 == g))

/-- Is a granule a spare that stands in for no granule? It stays clock-gated and holds no program (R24). -/
def State.spareIdle (s : State) (g : Nat) : Bool := decide (s.spareRow ≤ g / 32) && !s.subst.any (fun p => p.2 == g)

/-- Does the clock reach a granule: its die's clock runs (CLK_DIEn.STATE) and it is no idle spare (R24)? -/
def State.granClocked (s : State) (g : Nat) : Bool := s.clocked (dieOfGran g) && !s.spareIdle g

/-- Does the clock reach a tile and its router? -/
def State.tileClocked (s : State) (t : Nat) : Bool := s.clocked (dieOf t) && !s.spareIdle (granOf t)

/-- The distance a choice minimises: |gx_s − gx|, then gy_s, then gx_s (R433). -/
def spareKey (g h : Nat) : Nat :=
  (max (g % 32) (h % 32) - min (g % 32) (h % 32)) * 1024 + h / 32 * 32 + h % 32

/-- The spare that R433 chooses for a failed granule. -/
def State.chooseSpare (s : State) (g : Nat) : Option Nat :=
  s.freeSpares.foldl (fun b h =>
    match b with
    | none => some h
    | some x => if spareKey g h < spareKey g x then some h else b) none

/-- Detoured granules: substituted ones and those that a path is charged to (R431). -/
def State.detoured (s : State) : List Nat := (s.subst.map Prod.fst ++ s.detours.map (fun p => s.virtGran p.2.granule)).eraseDups

/-- The lowest-numbered free detour paths. -/
def State.freePaths (s : State) : List Nat := (List.range 32).filter (fun i => (s.detours.find i).isNone)

/-- The contexts that have a member tile in a granule. -/
def State.ctxsIn (s : State) (g : Nat) : List Nat :=
  ((List.range 16).filterMap (fun i => (s.tile (tileAt g i)).home)).eraseDups

/-- Posts a FAULT event to the provider (R450). -/
def State.faultEvent (s : State) (cls action loc other lanes stall tenants : Nat) : State :=
  s.postPF 0x40 cls (body [(24, 1, action), (26, 2, loc), (28, 2, other), (30, 1, lanes), (32, 4, stall),
    (36, 2, tenants), (38, 1, s.detoured.length)])

/-- Posts a TENANT_FAULT event of subtype 3 (R450). -/
def State.recoveryEvent (s : State) (c action vgx vgy cls b last stall : Nat) : State :=
  s.postTenant (c / 4) 0x20 3 (s.ctx c).eventId (body [(24, 1, action), (25, 1, vgx), (26, 1, vgy), (27, 1, cls),
    (28, 6, b), (34, 6, last), (40, 4, stall), (44, 4, (s.ctx c).recoveries)])

/-- Tile `i` of a die, row by row. -/
def dieTile (d i : Nat) : Nat := 128 * (12 * (d / 8) + i / 16) + 16 * (d % 8) + i % 16

/-- The objects of a die's pool in a tenant's quota: q of the 42 set aside for each of its region's tiles there (R79, R360).
[DEDUCED: log 117] -/
def State.quotaObjects (s : State) (n d : Nat) : List Nat :=
  (List.range 192).flatMap (fun i =>
    if s.tenantOfGran (granOf (dieTile d i)) = some n then (List.range (s.tenant n).syncQ).map (fun k => 42 * i + k) else [])

/-- Those that no handle is bound to, in ascending pool index. -/
def State.freeObjects (s : State) (n d : Nat) : List Nat :=
  let used := (List.range 192).flatMap (fun i => (s.tile (dieTile d i)).sync.map (fun p => p.2.pool))
  (s.quotaObjects n d).filter (fun k => !used.contains k)

/-- The handles of a table bound to the given objects in turn, with counts 0 (R360, R448). -/
def rebind (objs : List Nat) (l : Tbl SyncObj) : Tbl SyncObj := (l.zip objs).map (fun p => (p.1.1, { pool := p.2, count := 0 }))

/-- A stream, named 64 × wharf + entry, under the name it has once wharf `h` stands in for wharf `g`. -/
def movedStream (g h k : Nat) : Nat := if k / 64 = g then 64 * h + k % 64 else k

/-- Everything that named the failed granule's wharf names the spare's: the circuits that land there, the replication sets, the
Loop streams and the queue pairs connected to them (R25). -/
def State.moveWharf (s : State) (g h : Nat) : State :=
  { s with
    wharves := (s.wharves.del g).set h { Wharf.reset with streams := (s.wharf g).streams }
    egress := s.egress.del g
    fabric := { s.fabric with circuits := s.fabric.circuits.mapVals (fun _ c => if c.wharf = g then { c with wharf := h } else c) }
    replSets := s.replSets.mapVals (fun _ l => l.map (fun w => if w = g then h else w))
    streams := s.streams.foldl (fun t p => t.set (movedStream g h p.1) p.2) []
    loops := s.loops.mapVals (fun _ l => { l with qps := l.qps.mapVals (fun _ q => { q with
      stream := movedStream g h q.stream
      sends := q.sends.map (fun x => { x with slot := x.slot.map (fun y => (movedStream g h y.1, y.2)) }) }) }) }

/-- The spare takes the failed granule's place: identities, routes and stream entries move, its handles are bound to objects of
the spare's die, what named the wharf names the spare's, the paths are charged to the failed granule's virtual place, and the
failed granule falls out of use (R25, R360, R433, R434 step 2). [DEDUCED: log 75] -/
def State.substitute (s : State) (g spare : Nat) (paths : List Nat) : State :=
  let v := s.virtGran g
  let owner := s.gran g
  let s := (s.moveWharf g spare)
  let s := { s with
    subst := Tbl.set (s.subst.filter (fun p => p.2 ≠ g)) v spare
    granules := Tbl.set (Tbl.set s.granules g .unusable) spare owner
    detours := ((paths.zip (List.range 4)).foldl (fun d p => Tbl.set d p.1 { granule := v, side := p.2, spare := some spare })
      (s.detours.filter (fun p => p.2.granule ≠ v))) }
  (List.range 16).foldl (fun s i =>
    let a := tileAt g i
    let b := tileAt spare i
    let ta := s.tile a
    let ra := s.router a
    let objs := match owner with
      | .owned n => s.freeObjects n (dieOf b)
      | _ => []
    let s := s.setTile b { Tile.reset with vx := ta.vx, vy := ta.vy, home := ta.home, sync := rebind objs ta.sync,
                                           gen := ta.gen, tapEn := ta.tapEn, dsEn := ta.dsEn, nmScale := ta.nmScale }
    let s := s.setRouter b { Router.reset with routes := ra.routes, openMask := ra.openMask }
    let s := s.setTile a { Tile.reset with faulted := ta.faulted, tileFault := ta.tileFault, faultAddr := ta.faultAddr }
    s.setRouter a Router.reset) s

/-- A member device that is not the root asks the root, through its parent, to withhold releases: REPLAY_HOLD (R318, R434 step 1). -/
def State.sendReplayHold (s : State) (c : Nat) : State :=
  let cx := s.ctx c
  match s.fabric.grants.find cx.domainId with
  | some g =>
    if cx.spans && !g.root then
      let u : LinkUnit := { kind := 4, index := 8, body := BitVec.ofNat 512 (packLE [(0, 2, cx.domainId), (2, 2, s.fabric.devid), (4, 6, cx.index)]) }
      let l := Tbl.get [] s.fabric.links g.parent ++ [u]
      { s with fabric := { s.fabric with links := s.fabric.links.set g.parent l } }
    else s
  | none => s

/-- Each domain with members in the granule is held for a recovery (R434 step 1). -/
def State.holdDomains (s : State) (cs : List Nat) (r : Nat → Recovery) : State :=
  cs.foldl (fun s c =>
    let cx := s.ctx c
    if cx.state.live then
      let s := if (r c).lost then s.sendReplayHold c else s
      s.setCtx c { cx with holdReleases := true, recovery := some (match cx.recovery with
        | some old => { old with lost := old.lost || (r c).lost, class_ := (r c).class_, granule := (r c).granule
                                 vgranule := (r c).vgranule }
        | none => r c) }
    else s) s

/-- A granule's hardware fault (R430, R433): substitution and replay, or the end of its domains. [DEDUCED: log 151] -/
def State.granuleFault (s : State) (g : Nat) : State :=
  match s.gran g with
  | .owned n =>
    let v := s.virtGran g
    let cs := s.ctxsIn g
    let vgx := v % 32
    let vgy := v / 32
    let freed := s.detours.filter (fun p => p.2.granule ≠ v)
    let paths := ((List.range 32).filter (fun i => (Tbl.find freed i).isNone)).take 4
    let nDet := (v :: s.detoured).eraseDups.length
    match s.chooseSpare g with
    | some spare =>
      if nDet ≤ 8 ∧ paths.length = 4 then
        let ld := s.loads.find n
        let replayable := match ld with
          | some l => l.replayable
          | none => true
        let grow := if (s.subst.find v).isSome then 0 else 1
        let s := (s.substitute g spare paths).capChangeAll
        let s := (s.modTenant n (fun t => { t with subst := t.subst + grow })).measureTenant n
        let s := s.faultEvent 3 3 g spare 0 0 1
        if replayable then
          s.holdDomains cs (fun c => { class_ := 3, granule := some spare, vgranule := (vgx, vgy), detected := s.now
                                       lastFired := (s.ctx c).index, lost := true })
        else cs.foldl (fun s c => (s.recoveryEvent c 4 vgx vgy 3 0 (s.ctx c).index 0).abortCtx c) s
      else
        let s := { s with granules := s.granules.set g .unusable }
        let s := s.faultEvent 3 6 g 0 0 0 1
        cs.foldl (fun s c => (s.recoveryEvent c 3 vgx vgy 3 0 (s.ctx c).index 0).abortCtx c) s
    | none =>
      let s := { s with granules := s.granules.set g .unusable }
      let s := s.faultEvent 3 6 g 0 0 0 1
      cs.foldl (fun s c => (s.recoveryEvent c 3 vgx vgy 3 0 (s.ctx c).index 0).abortCtx c) s
  | .unusable => s
  | _ => ({ s with granules := s.granules.set g .unusable }).faultEvent 3 6 g 0 0 0 0

/-! ### Tile faults (R95) -/

def cIllegal : Nat := 1
def cMisaligned : Nat := 2
def cRange : Nat := 3
def cIntegrity : Nat := 4
def cUnbound : Nat := 5
def cOrderInvalid : Nat := 6
def cOrderFault : Nat := 7

/-- TILE_FAULT (R97). -/
def faultWord (cause source : Nat) (precise : Bool) (detail index : Nat) : DWord :=
  BitVec.ofNat 64 (pack [(0, 8, cause), (8, 2, source), (10, 1, b2n precise), (16, 16, detail), (32, 12, index)])

/-- A tile fault: core and engines stop, the first fault is recorded, TENANT_FAULT is posted (R95); `hw` where it is
also a hardware fault of the granule (R430). A tile that is stopped already records nothing more. -/
def State.stopTile (s : State) (t cause source : Nat) (precise : Bool) (detail index addr : Nat) (hw : Bool) : State :=
  let tl := s.tile t
  if tl.faulted then s
  else
    let s := s.setTile t { tl.stopEngines with
      gen := tl.gen.settled
      faulted := true, tileFault := faultWord cause source precise detail index, faultAddr := BitVec.ofNat 64 (addr % 2 ^ 32) }
    let s := match s.tenantOfGran (granOf t) with
      | some n =>
        let dom := match tl.home with
          | some c => (s.ctx c).eventId
          | none => 0xFFFF
        s.postTenant n 0x20 1 dom (body [(24, 1, tl.vx), (25, 1, tl.vy), (26, 1, cause), (27, 1, source), (28, 2, detail),
          (30, 2, index), (32, 4, addr)])
      | none => s
    let s := s.trace t 5 source cause
    if hw then s.granuleFault (granOf t) else s

/-- A fault that the scalar core (source 0) or an engine raises: those of the core are precise (R95). -/
def State.tileFault (s : State) (t cause source detail index addr : Nat) (hw : Bool) : State :=
  s.stopTile t cause source (source = 0) detail index addr hw

end Sys2Proof.Machine
end

