-- ==== Sys2Proof/Machine/TileRegs.lean ====
section
/-! DEFINITION. A tile's control space (R97), its lock block (02), monitor block (R420) and generator block (R288). -/

namespace Sys2Proof.Machine

/-- The engine of a number: 0 MXE, 1 VXE, 2 XE. -/
def Tile.engine (t : Tile) (e : Nat) : Engine :=
  match e with
  | 0 => t.mxe
  | 1 => t.vxe
  | _ => t.xe

def Tile.setEngine (t : Tile) (e : Nat) (v : Engine) : Tile :=
  match e with
  | 0 => { t with mxe := v }
  | 1 => { t with vxe := v }
  | _ => { t with xe := v }

/-- Header fields of an order (R72). -/
def ordOpcode (o : Order) : Nat := bits o.toNat 0 8
def ordWE (o : Order) : Bool := bit o.toNat 8
def ordSE (o : Order) : Bool := bit o.toNat 9
def ordWObj (o : Order) : Nat := bits o.toNat 16 8
def ordWN (o : Order) : Nat := bits o.toNat 24 12
def ordSObj (o : Order) : Nat := bits o.toNat 36 8
def ordSN (o : Order) : Nat := bits o.toNat 44 12

/-- Is an order's wait satisfied by the counts as they stand (R72, R76)? -/
def Tile.waitOk (t : Tile) (o : Order) : Bool := !ordWE o || decide (ordWN o ≤ t.syncCount (ordWObj o))

/-! ### Waits in their priority (R75, R77) -/

/-- A found fault of an order: cause, DETAIL and FAULT_ADDR. -/
structure OrdFault where
  cause : Nat
  detail : Nat := 0
  addr : Nat := 0
  deriving DecidableEq, Repr

/-- Bits [lo + w − 1 : lo] of an order descriptor. -/
def ordField (o : Order) (lo w : Nat) : Nat := bits o.toNat lo w

/-- Does engine `e` define the opcode (R135, R174)? -/
def opDefined (e op : Nat) : Bool :=
  match e with
  | 0 => decide (op ≤ 6)
  | 1 => decide (op ≤ 2) || op == 6 || (decide (0x10 ≤ op) && decide (op ≤ 0x14))
  | _ => op == 0 || (decide (0x10 ≤ op) && decide (op ≤ 0x14))

/-- OPFLAGS bits that the order's description reserves (R135, R142, R144, R148, R174). -/
def reservedFlags (e op : Nat) : Nat :=
  match e with
  | 0 => if op = 3 ∨ op = 5 then 0xFE else 0xFF
  | 1 => if 0x10 ≤ op then 0 else 0xFF
  | _ => 0xFF

/-- The header checks of R75. -/
def Tile.headerCheck (t : Tile) (e : Nat) (o : Order) : Option OrdFault :=
  let op := ordOpcode o
  if bits o.toNat 10 6 ≠ 0 ∨ opDefined e op = false ∨ bits o.toNat 56 8 &&& reservedFlags e op ≠ 0 then
    some { cause := cOrderInvalid }
  else if ordWE o ∧ (t.sync.find (ordWObj o)).isNone then some { cause := cUnbound, detail := ordWObj o }
  else if ordSE o ∧ (t.sync.find (ordSObj o)).isNone then some { cause := cUnbound, detail := ordSObj o }
  else none

/-- The amount that engine `e`'s head takes from handle `h` in this cc when `avail` is left for it (R77). -/
def Tile.headTakes (t : Tile) (e h avail : Nat) : Nat :=
  let en := t.engine e
  match en.pending, en.queue with
  | none, o :: _ =>
    if ordWE o && ordWObj o == h && decide (ordWN o ≤ avail) && (t.headerCheck e o).isNone then ordWN o else 0
  | _, _ => 0

/-- What a waiter of rank `r` (0 MXE, 1 VXE, 2 XE, 3 scalar) finds of handle `h`: the count less what the waiters
before it take in the same cc (R77). [DEDUCED: log 19] -/
def Tile.avail (t : Tile) (r h : Nat) : Nat :=
  let c := t.syncCount h
  let c := if 0 < r then c - t.headTakes 0 h c else c
  let c := if 1 < r then c - t.headTakes 1 h c else c
  if 2 < r then c - t.headTakes 2 h c else c

/-- QUEUE_STATE's WAITING bit: the order at the head is tested, passes its header checks, and finds too little of its object (R75,
R77). -/
def Tile.headWaits (t : Tile) (e : Nat) : Bool :=
  let en := t.engine e
  match en.queue with
  | o :: _ => en.pending.isNone && (t.headerCheck e o).isNone && ordWE o && decide (t.avail e (ordWObj o) < ordWN o)
  | [] => false

/-- The control register at offset `o` (R97); offsets not listed read as zero. -/
def crRead (t : Tile) (member : Bool) (o : Nat) : Nat :=
  if 0x2000 ≤ o ∧ o < 0x2800 then (Tbl.get 0#32 t.acnt ((o - 0x2000) / 8)).toNat
  else if 0x1800 ≤ o ∧ o < 0x2000 then t.syncCount ((o - 0x1800) / 8)
  else if 0x1000 ≤ o ∧ o < 0x1800 then
    (match t.sync.find ((o - 0x1000) / 8) with
     | some b => pack [(0, 13, b.pool), (15, 1, 1)]
     | none => 0)
  else match o with
    | 0x0000 => pack [(0, 7, t.vx), (8, 6, t.vy), (16, 2, match t.home with | some c => c % 4 | none => 0)]
    | 0x0008 => pack [(0, 1, b2n t.syncOverflow), (1, 1, b2n t.memCorrected), (2, 1, b2n t.memPoison), (3, 1, b2n t.faulted)]
    | 0x0010 => t.tileFault.toNat
    | 0x0018 => t.faultAddr.toNat
    | 0x0020 => pack [(0, 32, t.ceCount.toNat), (32, 16, t.ueCount.toNat)]
    | 0x0028 => t.memErrAddr.toNat
    | 0x0030 => pack [(0, 5, t.mxe.queue.length), (8, 5, t.vxe.queue.length), (16, 5, t.xe.queue.length),
        (24, 1, b2n (t.headWaits 0)), (25, 1, b2n (t.headWaits 1)), (26, 1, b2n (t.headWaits 2))]
    | 0x0038 => t.ovfHandle.toNat
    | 0x0400 => pack [(0, 1, b2n member), (4, 2, t.lock.acctMark.toNat), (8, 4, t.lock.cargoMask.toNat)]
    | 0x0408 => t.lock.contrib[0].toNat
    | 0x0410 => t.lock.contrib[1].toNat
    | 0x0418 => t.lock.contrib[2].toNat
    | 0x0420 => t.lock.contrib[3].toNat
    | 0x0428 => t.lock.flagsOut.toNat
    | 0x0430 => t.lock.index.toNat
    | 0x0438 => t.lock.cargo[0].toNat
    | 0x0440 => t.lock.cargo[1].toNat
    | 0x0448 => t.lock.cargo[2].toNat
    | 0x0450 => t.lock.cargo[3].toNat
    | 0x0458 => t.lock.flagsIn.toNat
    | 0x0460 => pack [(0, 1, b2n t.lock.committed), (1, 1, b2n t.lock.late), (2, 4, t.lock.winLow.toNat),
        (6, 4, t.lock.winHigh.toNat), (10, 4, t.lock.nonfinite.toNat)]
    | 0x0480 => t.lock.acct[0].toNat
    | 0x0488 => t.lock.acct[1].toNat
    | 0x0490 => t.lock.acct[2].toNat
    | 0x0498 => t.lock.acct[3].toNat
    | 0x04A0 => t.lock.acct[4].toNat
    | 0x04A8 => t.lock.acct[5].toNat
    | 0x04B0 => t.lock.acct[6].toNat
    | 0x0800 => pack [(1, 15, t.tapEn.toNat / 2), (17, 15, t.dsEn.toNat / 2)]
    | 0x0C00 => t.gen.keyLo.toNat
    | 0x0C08 => t.gen.keyHi.toNat
    | 0x0C10 => t.gen.genIn.toNat
    | 0x0C18 => t.gen.genPos.toNat
    | 0x0C20 =>
      let i := t.gen.prev2.1.toNat
      gen32 t.gen.keyLo.toNat t.gen.keyHi.toNat (bits i 0 32) (bits i 32 32) t.gen.prev2.2.toNat
    | 0x0C28 => t.gen.count.toNat
    | _ => if 0x0808 ≤ o ∧ o ≤ 0x0878 ∧ o % 8 = 0 then Tbl.get 0x7F t.nmScale ((o - 0x0800) / 8) else 0

/-- `old` with the bits of `mask` taken from `v`. -/
def merge (old mask v : Nat) : Nat := (old &&& (mask ^^^ (old ||| mask))) ||| (v &&& mask)

/-- A write of the halves of a control register that `mask` covers, under the access codes (R13, R96, R172). -/
def crWrite (t : Tile) (o mask v : Nat) : Tile :=
  let m64 (old : DWord) : DWord := BitVec.ofNat 64 (merge old.toNat mask v)
  let w1c (flag : Bool) (i : Nat) : Bool := flag && !(bit mask i && bit v i)
  if 0x2000 ≤ o ∧ o < 0x2800 then
    let n := (o - 0x2000) / 8
    { t with acnt := Tbl.put 0#32 t.acnt n (BitVec.ofNat 32 (merge (Tbl.get 0#32 t.acnt n).toNat mask v)) }
  else match o with
    | 0x0008 => { t with syncOverflow := w1c t.syncOverflow 0, memCorrected := w1c t.memCorrected 1, memPoison := w1c t.memPoison 2 }
    | 0x0400 =>
      let old := pack [(4, 2, t.lock.acctMark.toNat), (8, 4, t.lock.cargoMask.toNat)]
      let new := merge old mask v
      { t with lock := { t.lock with acctMark := BitVec.ofNat 2 (bits new 4 2), cargoMask := BitVec.ofNat 4 (bits new 8 4) } }
    | 0x0408 => { t with lock := { t.lock with contrib := t.lock.contrib.set 0 (m64 t.lock.contrib[0]) } }
    | 0x0410 => { t with lock := { t.lock with contrib := t.lock.contrib.set 1 (m64 t.lock.contrib[1]) } }
    | 0x0418 => { t with lock := { t.lock with contrib := t.lock.contrib.set 2 (m64 t.lock.contrib[2]) } }
    | 0x0420 => { t with lock := { t.lock with contrib := t.lock.contrib.set 3 (m64 t.lock.contrib[3]) } }
    | 0x0428 => { t with lock := { t.lock with flagsOut := BitVec.ofNat 32 (merge t.lock.flagsOut.toNat mask v) } }
    | 0x0460 => { t with lock := { t.lock with committed := w1c t.lock.committed 0, late := w1c t.lock.late 1 } }
    | 0x0C10 => { t with gen := { t.gen with genIn := m64 t.gen.genIn } }
    | 0x0C18 => { t with gen := { t.gen with genPos := m64 t.gen.genPos } }
    | _ => t

/-- The generator block after an instruction of `n` cycles that found (GEN_IN, GEN_POS) at `old`: GEN_OUT follows their
contents at the start of the cycle two cycles before the read (R289). -/
def GenBlock.advance (g : GenBlock) (old : DWord × DWord) (n : Nat) : GenBlock :=
  match n with
  | 0 => g
  | 1 => { g with prev2 := g.prev1, prev1 := old }
  | _ => { g with prev2 := old, prev1 := old }

end Sys2Proof.Machine
end

