-- ==== Sys2Proof/Machine/Orders.lean ====
section
/-! DEFINITION. Order queues (R72 to R78): header checks, waits in their priority, leaving the head, signals. -/

namespace Sys2Proof.Machine

/-- Applies a signal, with SYNC_OVERFLOW where it saturates (R76, R78). -/
def Tile.signal (t : Tile) (o : Order) : Tile := if ordSE o then t.syncSignal (ordSObj o) (ordSN o) else t

/-- Does the tile run orders: it is not stopped by a fault, it has a program and its clock runs? -/
def State.enginesRun (s : State) (t : Nat) : Bool :=
  let tl := s.tile t
  tl.core.act != .off && !tl.faulted && s.tileClocked t

/-- SOURCE code of an engine (R97). -/
def srcOf (e : Nat) : Nat := e + 1

/-- INDEX of an engine's fault: the orders it had taken from its queue (R97). -/
def State.orderFault (s : State) (t e : Nat) (f : OrdFault) (hw : Bool) : State :=
  s.tileFault t f.cause (srcOf e) f.detail (((s.tile t).engine e).taken % 4096) f.addr hw

/-- ORDER_LEAVES_HEAD: the tested head order passes its header checks and its wait, and becomes the pending order
(R74, R75); a failed check faults the tile. -/
def execOrderLeavesHead (t e : Nat) (s : State) : Out :=
  if numTiles ≤ t ∨ 3 ≤ e then .fault .noSuchUnit
  else
    let tl := s.tile t
    let en := tl.engine e
    match en.pending, en.queue with
    | none, o :: q =>
      if s.enginesRun t then
        match tl.headerCheck e o with
        | some f => .next (s.orderFault t e f false)
        | none =>
          if ordWE o && decide (tl.avail e (ordWObj o) < ordWN o) then .next s
          else
            let tl := if ordWE o then tl.syncTake (ordWObj o) (ordWN o) else tl
            .next (s.setTile t (tl.setEngine e { en with queue := q, pending := some o, taken := en.taken + 1, gated := false }))
      else .next s
    | _, _ => .next s

/-- ORDER_SIGNAL: the oldest order whose work is done applies its signal (R74); orders completed are counted (R157). -/
def execOrderSignal (t e : Nat) (s : State) : Out :=
  if numTiles ≤ t ∨ 3 ≤ e then .fault .noSuchUnit
  else
    let tl := s.tile t
    let en := tl.engine e
    match en.owed with
    | o :: rest =>
      if s.enginesRun t then
        let tl := tl.setEngine e { en with owed := rest, orders := en.orders + 1 }
        .next ((s.setTile t (tl.signal o)).trace t 4 e (ordOpcode o))
      else .next s
    | [] => .next s

end Sys2Proof.Machine
end

