-- ==== Sys2Proof/Machine/Td.lean ====
section
/-! DEFINITION. Tensor descriptors (R136, R137), wide accesses (R86), taps (R419), numeric status (R156) and the end
of an order's work. -/

namespace Sys2Proof.Machine

/-- A tensor descriptor as an order sees it (R136). -/
structure Td where
  base : Nat
  fmt : Nat
  s : Bool
  te : Bool
  sbase : Nat
  t : Nat
  stream : Nat
  gcols : Nat
  grow0 : Nat
  gcol0 : Nat
  tap : Nat
  rowb : Bool
  scal : Bool
  reserved : Bool
  deriving DecidableEq, Repr

/-- A descriptor read from its 256 bits, with the scales that delayed scaling substitutes for T (R422). -/
def tdOf (scales : Tbl Nat) (d : BitVec 256) : Td :=
  let x := d.toNat
  let te := bit x 27
  let tap := bits x 192 4
  { base := bits x 0 22, fmt := bits x 22 4, s := bit x 26, te := te, sbase := bits x 32 22
    t := if te then (scales.find tap).getD (bits x 56 8) else bits x 56 8
    stream := bits x 64 32, gcols := bits x 96 32, grow0 := bits x 128 32, gcol0 := bits x 160 32, tap := tap
    rowb := bit x 196, scal := bit x 197, reserved := bits x 28 4 ≠ 0 || bits x 54 2 ≠ 0 || bits x 198 58 ≠ 0 }

/-- The NM_SCALE values of the slots under delayed scaling (R422). -/
def Tile.dsScales (t : Tile) : Tbl Nat :=
  (List.range 16).filterMap (fun k => if 0 < k && t.dsEn.getLsbD k then some (k, Tbl.get 0x7F t.nmScale k) else none)

/-- TDi of the MXE or the VXE. -/
def Tile.td (t : Tile) (e i : Nat) : Td :=
  let h : i % 16 < 16 := Nat.mod_lt i (by decide)
  if e = 0 then tdOf t.mxe.scales (t.mtd[i % 16]'h) else tdOf t.vxe.scales (t.vtd[i % 16]'h)

/-- VKi. -/
def Tile.vkVal (t : Tile) (i : Nat) : DWord := t.vk[i % 16]'(Nat.mod_lt i (by decide))

/-- The global position of element (i, j) (R137), as a u64. -/
def Td.pos (d : Td) (i j : Nat) : Nat := ((d.grow0 + i) * d.gcols + d.gcol0 + j) % 2 ^ 64

/-- Bits of one element of a format code. -/
def codeBits (c : Nat) : Nat :=
  match fmtOf c with
  | some f => f.width
  | none => 0

/-- The format of a code that has been checked. -/
def codeFmt (c : Nat) : Fmt := (fmtOf c).getD binary32

/-- A decoded element with its block scale `x` and the tensor scale applied exactly (R103 to R107). -/
def Td.decode (d : Td) (code x : Nat) : Fv :=
  let v := decodeFmt (codeFmt d.fmt) d.s code
  if d.s && x == 0xFF || d.te && d.t == 0xFF then .nan false
  else (if d.s then v.scale ((x : Int) - 127) else v).scale (if d.te then (d.t : Int) - 127 else 0)

/-! ### Operand checks of descriptors (R108, R137) -/

def ofBadFormat : OrdFault := { cause := cOrderFault, detail := 0x0001 }
def ofBadScaling : OrdFault := { cause := cOrderFault, detail := 0x0002 }
def ofBadRounding : OrdFault := { cause := cOrderFault, detail := 0x0003 }
def ofBadCount : OrdFault := { cause := cOrderFault, detail := 0x0010 }
def ofAccRange : OrdFault := { cause := cOrderFault, detail := 0x0011 }
def ofAccState : OrdFault := { cause := cOrderFault, detail := 0x0012 }
def ofBufState : OrdFault := { cause := cOrderFault, detail := 0x0013 }
def ofBadConstant : OrdFault := { cause := cOrderFault, detail := 0x0014 }
def ofBadDescriptor : OrdFault := { cause := cOrderFault, detail := 0x0015 }
def ofBadFunc : OrdFault := { cause := cOrderFault, detail := 0x0016 }
def ofInvalid : OrdFault := { cause := cOrderInvalid }

/-- The first check of a list, in the order of precedence, that fails. -/
def firstFault : List (Bool × OrdFault) → Option OrdFault
  | [] => none
  | (b, f) :: r => if b then some f else firstFault r

/-- S or TE with a code 0x0 to 0x3, or T = 0xFF on a destination (R137). -/
def Td.badScaling (d : Td) (dest : Bool) : Bool :=
  ((d.s || d.te) && decide (d.fmt ≤ 3)) || (dest && d.te && d.t == 0xFF)

/-- Reserved bits, or ROWB and SCAL where they may not stand (R137); `bc` where they may. -/
def Td.badDescriptor (d : Td) (bc : Bool) : Bool :=
  d.reserved || (d.rowb && d.scal) || (!bc && (d.rowb || d.scal))

/-- One span of tile memory that an order touches: the field's value, its alignment and its length in bytes. -/
structure Span where
  field : Nat
  align : Nat
  len : Nat

/-- ADDRESS_RANGE over all spans, with the address of the first block above 0x003F_FFFF (R137). A span ends with its last byte,
also where its start is misaligned. [DESIGN CHOICE: log 187] -/
def spanRange (l : List Span) : Bool × OrdFault :=
  (l.any (fun s => decide (2 ^ 22 < s.field + s.len)), { cause := cRange, addr := 2 ^ 22 })

/-- MISALIGNED of the first span whose field fails (R137). -/
def spanAlign (l : List Span) : Bool × OrdFault :=
  match l.find? (fun s => s.field % s.align ≠ 0) with
  | some s => (true, { cause := cMisaligned, addr := s.field })
  | none => (false, { cause := cMisaligned })

/-! ### Wide reads and writes (R86) -/

/-- Reads `n` successive 512 B blocks from block `b`, stopping at the first that fails: the failing word and whether the
check was fresh (R90, R91). The failing word, not the start of the wide access, becomes FAULT_ADDR. [DESIGN CHOICE: log 182] -/
def Tile.readBlocks (t : Tile) (b : Nat) : Nat → Tile × Option (Nat × Bool)
  | 0 => (t, none)
  | n + 1 =>
    match t.checkWords (64 * b) 64 with
    | (t, some f) => (t, some f)
    | (t, none) => t.readBlocks (b + 1) n

/-- Reads every block that [addr, addr + len) touches. -/
def Tile.readSpan (t : Tile) (addr len : Nat) : Tile × Option (Nat × Bool) :=
  if len = 0 then (t, none) else t.readBlocks (addr / 512) ((addr + len - 1) / 512 + 1 - addr / 512)

/-- Reads several spans in turn. -/
def Tile.readSpans (t : Tile) : List (Nat × Nat) → Tile × Option (Nat × Bool)
  | [] => (t, none)
  | (a, n) :: r =>
    match t.readSpan a n with
    | (t, some f) => (t, some f)
    | (t, none) => t.readSpans r

/-- Element `k` of `w` bits of a little-endian packed row (R102). -/
def elemOf (row w k : Nat) : Nat := bits row (w * k) w

/-- A packed row from element codes of `w` bits (R102). -/
def packElems (w : Nat) : List Nat → Nat
  | [] => 0
  | c :: r => c % 2 ^ w + packElems w r <<< w

/-- Writes `n` whole blocks at `addr`, the bytes beyond the data zero. -/
def Tile.writeBlocks (t : Tile) (addr n x : Nat) : Tile := t.writeWhole addr (512 * n) x

/-! ### Numeric status (R156) -/

def nsLow : Nat := 32
def nsHigh : Nat := 64
def nsNonfinite : Nat := 128

def satAdd32 (w : Word) (n : Nat) : Word := BitVec.ofNat 32 (satAdd 32 w.toNat n)

/-- Flags ORed into NUMSTAT, and outputs counted with LOW, HIGH and NONFINITE (R156, R157). -/
def Engine.numeric (e : Engine) (flags low high nonfinite : Nat) : Engine :=
  { e with numstat := e.numstat ||| BitVec.ofNat 8 flags, lowCount := satAdd32 e.lowCount low
           highCount := satAdd32 e.highCount high, nonfiniteCount := satAdd32 e.nonfiniteCount nonfinite }

/-- The 512 B numeric status record (R157). -/
def Engine.record (e : Engine) : Nat :=
  packLE [(0, 8, e.numstat.toNat), (8, 4, e.lowCount.toNat), (12, 4, e.highCount.toNat), (16, 4, e.nonfiniteCount.toNat),
          (20, 4, e.orders.toNat)]

/-! ### Taps (R155, R419) -/

/-- A value presented to the monitor: the slot, the value, and the conditions counted with it. -/
structure Tap where
  slot : Nat
  v : Fv
  sat : Bool := false
  low : Bool := false
  high : Bool := false
  nonfinite : Bool := false

/-- floor(log2 |v|) of a finite nonzero value. -/
def Fv.log2? : Fv → Option Int
  | .fin _ m e => if m = 0 then none else some (e + m.log2)
  | _ => none

/-- The larger of a value and the largest before it, if any. -/
def maxSeen (a : Option Int) (l : Int) : Option Int :=
  match a with
  | some a => some (max a l)
  | none => some l

def MonSlot.count (m : MonSlot) (i : Nat) (on : Bool) : MonSlot :=
  if on then { m with counts := m.counts.set i (satAdd 32 (Tbl.get 0 m.counts i) 1) } else m

/-- One value counted by a slot with exponent base `base` (R419). -/
def MonSlot.take (m : MonSlot) (base : Int) (p : Tap) : MonSlot :=
  let m := match p.nonfinite, p.v with
    | true, _ => m.count 32 true
    | false, .fin _ k e =>
      if k = 0 then m.count 33 true
      else
        let l := e + k.log2
        let m := m.count (min (max (l - base) 0) 31).toNat true
        { m with amaxe := maxSeen m.amaxe l, measured := maxSeen m.measured l }
    | false, _ => m.count 32 true
  ((m.count 34 p.sat).count 35 p.low).count 36 p.high

/-- A tap of tile `t`: counted by its granule's unit while the slot is enabled (R419). -/
def State.tap (s : State) (t : Nat) (p : Tap) : State :=
  let tl := s.tile t
  if p.slot ≠ 0 && tl.tapEn.getLsbD p.slot then
    let base := match tl.home with
      | some c => Tbl.get 0 (s.ctx c).monBase p.slot
      | none => 0
    let k := 16 * granOf t + p.slot
    { s with mons := s.mons.set k ((Tbl.get {} s.mons k).take base p) }
  else s

/-- Is the value an infinity? -/
def Fv.isInf : Fv → Bool
  | .inf _ => true
  | _ => false

/-- Did a store with flags `fl` saturate or overflow a value: OF, an integer out of range, or an infinity stored as a
finite number (R419)? -/
def storeSat (f : Fmt) (sat : Bool) (v : Fv) (fl : Nat) : Bool :=
  bit fl 2 || (bit fl 0 && ((f.isInt && !v.isNan) || (v.isInf && (sat || (!f.hasInf && !f.hasNan)))))

/-! ### The end of an order's work -/

/-- What an order's work comes to: the tile, its taps, and a failed read where there was one. -/
structure OrdDone where
  tile : Tile
  taps : List Tap := []
  bad : Option (Nat × Bool) := none

/-- The work of engine `e`'s order `o` is done, and it owes its signal; a failed read faults the tile instead (R91). -/
def State.orderDone (s : State) (t e : Nat) (o : Order) (r : OrdDone) : State :=
  let s := s.setTile t r.tile
  let s := r.taps.foldl (fun s p => s.tap t p) s
  match r.bad with
  | some (addr, fresh) => s.orderFault t e { cause := cIntegrity, addr := addr } fresh
  | none => s.modTile t (fun tl => let en := tl.engine e; tl.setEngine e { en with exec := none, owed := en.owed ++ [o] })

/-- The row of an order: it does its work when that order is the one executing on a running engine. -/
def orderRow (t e op : Nat) (ups : List (Nat × Bool)) (work : Tile → Order → OrdDone) (s : State) : Out :=
  if numTiles ≤ t then .fault .noSuchUnit
  else
    match ((s.tile t).engine e).exec with
    | some o =>
      if s.enginesRun t && ordOpcode o == op then .next (s.orderDone t e o (work ((s.tile t).upsets ups) o)) else .next s
    | none => .next s

/-- LDTD operands (R138). -/
def ldAddr (o : Order) : Nat := ordField o 64 22
def ldMask (o : Order) : Nat := ordField o 86 16

/-- Descriptors with those of `mask` loaded from a block (R138). -/
def loadTds (old : Vector (BitVec 256) 16) (mask blk : Nat) : Vector (BitVec 256) 16 :=
  Vector.ofFn (fun i : Fin 16 => if bit mask i.val then BitVec.ofNat 256 (fieldLE blk (32 * i.val) 32) else old[i])

/-- LDTD of either engine (R138). -/
def workLdtd (e : Nat) (t : Tile) (o : Order) : OrdDone :=
  match t.readSpan (ldAddr o) 512 with
  | (t, some f) => { tile := t, bad := some f }
  | (t, none) =>
    let blk := t.readMem (ldAddr o) 512
    { tile := if e = 0 then { t with mtd := loadTds t.mtd (ldMask o) blk } else { t with vtd := loadTds t.vtd (ldMask o) blk } }

/-- STAT of either engine: the record is written, then flags and counters are cleared as asked (R157). -/
def workStat (e : Nat) (t : Tile) (o : Order) : OrdDone :=
  let en := t.engine e
  let cmask := BitVec.ofNat 8 (ordField o 86 8)
  let t := t.writeBlocks (ldAddr o) 1 en.record
  let en := { en with numstat := en.numstat &&& ~~~cmask }
  let en := if bit o.toNat 94 then { en with lowCount := 0, highCount := 0, nonfiniteCount := 0 } else en
  { tile := t.setEngine e en }

/-- Checks of an order that names one block by ADDR: reserved operand bits from bit `hi`, then the address (R138, R157). -/
def checkAddr (o : Order) (hi : Nat) : Option OrdFault :=
  let l := [{ field := ldAddr o, align := 512, len := 512 : Span }]
  firstFault [(bits o.toNat hi (128 - hi) ≠ 0, ofInvalid), spanRange l, spanAlign l]

/-- A NOP: every operand bit is reserved (R135, R174). -/
def checkNop (o : Order) : Option OrdFault := firstFault [(bits o.toNat 64 64 ≠ 0, ofInvalid)]

end Sys2Proof.Machine
end

