-- ==== Sys2Proof/Machine/Mxe.lean ====
section
/-! DEFINITION. The matrix engine's orders: operand checks and work (R138 to R144, R158). -/

namespace Sys2Proof.Machine

/-! ### Operands -/

def mTd (o : Order) : Nat := ordField o 64 4
/-- Field of MMA: buffer, set, rows, exponent, passes. -/
def mmaBuf (o : Order) : Bool := bit o.toNat 68
def mmaAcc (o : Order) : Nat := ordField o 69 2
def mmaR0 (o : Order) : Nat := ordField o 71 8
def mmaM (o : Order) : Nat := ordField o 79 9
def mmaE (o : Order) : Int := sext (ordField o 88 16) 16
def mmaPasses (o : Order) : Nat := ordField o 104 2
def opFlag0 (o : Order) : Bool := bit o.toNat 56
/-- Fields of DRAIN and LDACC. -/
def drAcc (o : Order) : Nat := ordField o 68 2
def drR0 (o : Order) : Nat := ordField o 70 8
def drM (o : Order) : Nat := ordField o 78 9
def drPartial (o : Order) : Bool := bit o.toNat 87
def drRM (o : Order) : Nat := ordField o 88 3
def drSat (o : Order) : Bool := bit o.toNat 91
def drClear (o : Order) : Bool := bit o.toNat 92

/-- The buffer of an MMA. -/
def Tile.bbuf (t : Tile) (b : Bool) : Option BBuf := if b then t.buf1 else t.buf0

/-- Accumulator row `r` of set `a`. -/
def Tile.accRow (t : Tile) (a r : Nat) : AccRow := Tbl.get .empty t.acc (256 * a + r)
def Tile.setAcc (t : Tile) (a r : Nat) (v : AccRow) : Tile := { t with acc := Tbl.put .empty t.acc (256 * a + r) v }

/-- The addressed accumulator rows that exist. -/
def Tile.accRows (t : Tile) (a r0 m : Nat) : List AccRow := ((List.range m).filter (fun i => decide (r0 + i < 256))).map (fun i => t.accRow a (r0 + i))

def narrow (c : Nat) : Bool := decide (4 ≤ c) && decide (c ≤ 0xA)
def fourBit (c : Nat) : Bool := c == 0x8 || c == 0xA

/-- Row pitch of an A row or a B column of `k` elements (R140, Memory layouts). -/
def rowPitch (fmt : Nat) : Nat := if fmt = 1 then 256 else if fmt = 2 ∨ fmt = 3 then 128 else 64

/-- Row pitch of a drained row of 32 outputs. -/
def outPitch (o : Order) (fmt : Nat) : Nat := if drPartial o then 512 else 4 * codeBits fmt

/-- Does a row carry the tag of the mode (exact with exponent `e`, or F32)? -/
def AccRow.hasTag (exactMode : Bool) (e : Int) : AccRow → Bool
  | .empty => false
  | .f32 _ => !exactMode
  | .exact e' _ => exactMode && e' == e

def AccRow.isEmpty : AccRow → Bool
  | .empty => true
  | _ => false
def AccRow.isF32 : AccRow → Bool
  | .f32 _ => true
  | _ => false

/-- Do all rows carry one tag and one E, none EMPTY (R143)? -/
def oneTag : List AccRow → Bool
  | [] => true
  | .empty :: _ => false
  | .f32 _ :: r => r.all AccRow.isF32
  | .exact e _ :: r => r.all (AccRow.hasTag true e)

/-! ### Operand checks (R158) -/

/-- LDB (R141). -/
def checkLdb (t : Tile) (o : Order) : Option OrdFault :=
  let d := t.td 0 (mTd o)
  let k128 := bit o.toNat 69
  let scales := if d.s then [{ field := d.sbase, align := 64, len := 32 * (if k128 then 4 else 2) : Span }] else []
  let spans := { field := d.base, align := 512, len := 32 * rowPitch d.fmt : Span } :: scales
  firstFault [
    (bits o.toNat 70 58 ≠ 0, ofInvalid),
    (d.fmt = 0 || decide (0xA < d.fmt), ofBadFormat), (d.badScaling false, ofBadScaling),
    (d.badDescriptor false, ofBadDescriptor), spanRange spans, spanAlign spans,
    (k128 && !fourBit d.fmt, ofBufState)]

/-- The mode of an MMA's operand pair: exact, or F32 (R140); none where no pair is allowed. -/
def pairMode (a b : Nat) : Option Bool :=
  if narrow a && narrow b then some true
  else if a = b ∧ 1 ≤ a ∧ a ≤ 3 then some false
  else none

/-- Is PASSES invalid for the codes (R140)? With an EMPTY buffer the code of A alone judges. [DESIGN CHOICE: log 185] -/
def badPasses (a : Nat) (b : Option BBuf) (p : Nat) : Bool :=
  match b with
  | some b => if a = 1 ∧ b.fmt = 1 then p == 0 else p != 1
  | none => if a = 1 then p == 0 else p != 1

/-- MMA (R140, R142). On an EMPTY buffer, which has no code, the pair and PASSES are judged by the code of A alone, before
BUF_STATE, and the check of a nonzero E is left out. [DESIGN CHOICE: log 185] -/
def checkMma (t : Tile) (o : Order) : Option OrdFault :=
  let d := t.td 0 (mTd o)
  let b := t.bbuf (mmaBuf o)
  let depth := match b with
    | some b => b.depth
    | none => 64
  let mode := match b with
    | some b => pairMode d.fmt b.fmt
    | none => if d.fmt = 0 ∨ 0xA < d.fmt then none else some (narrow d.fmt)
  let scales := if d.s then [{ field := d.sbase, align := 64, len := mmaM o * (depth / 32) : Span }] else []
  let spans := { field := d.base, align := 512, len := mmaM o * rowPitch d.fmt : Span } :: scales
  firstFault [
    (bits o.toNat 106 22 ≠ 0, ofInvalid),
    (mode.isNone || badPasses d.fmt b (mmaPasses o) || (b.isSome && mode == some false && mmaE o ≠ 0), ofBadFormat),
    (d.badScaling false, ofBadScaling),
    (d.badDescriptor false, ofBadDescriptor),
    (mmaM o = 0 || decide (256 < mmaM o), ofBadCount),
    spanRange spans, spanAlign spans,
    (decide (256 < mmaR0 o + mmaM o), ofAccRange),
    (b.isNone || (depth == 128 && !fourBit d.fmt), ofBufState),
    (!opFlag0 o && !(t.accRows (mmaAcc o) (mmaR0 o) (mmaM o)).all (AccRow.hasTag (mode == some true) (mmaE o)), ofAccState)]

/-- DRAIN (R143). Its scales count as one whole 512 B block for ADDRESS_RANGE. BAD_FORMAT, BAD_SCALING and BAD_ROUNDING come by
their code where several fail. [DESIGN CHOICE: log 187, 188] -/
def checkDrain (t : Tile) (o : Order) : Option OrdFault :=
  let d := t.td 0 (mTd o)
  let rows := t.accRows (drAcc o) (drR0 o) (drM o)
  let p := drPartial o
  let scales := if d.s then [{ field := d.sbase, align := 512, len := 512 : Span }] else []
  let spans := { field := d.base, align := 512, len := drM o * outPitch o d.fmt : Span } :: scales
  firstFault [
    (bits o.toNat 93 35 ≠ 0, ofInvalid),
    (if p then rows.any AccRow.isF32 else d.fmt = 0 || decide (5 < d.fmt), ofBadFormat),
    (if p then d.s || d.te else d.badScaling true, ofBadScaling),
    (decide (4 ≤ drRM o), ofBadRounding),
    (d.badDescriptor false, ofBadDescriptor),
    (drM o = 0 || decide (256 < drM o), ofBadCount),
    spanRange spans, spanAlign spans,
    (decide (256 < drR0 o + drM o), ofAccRange),
    (!oneTag rows, ofAccState)]

/-- LDACC (R144). -/
def checkLdacc (t : Tile) (o : Order) : Option OrdFault :=
  let d := t.td 0 (mTd o)
  let p := drPartial o
  let e := mmaE o
  let spans := [{ field := d.base, align := 512, len := drM o * (if p then 512 else 128) : Span }]
  firstFault [
    (bits o.toNat 104 24 ≠ 0, ofInvalid),
    (!p && (e ≠ 0 || d.fmt ≠ 1), ofBadFormat),
    (if p then d.s || d.te else d.badScaling false, ofBadScaling),
    (d.badDescriptor false, ofBadDescriptor),
    (drM o = 0 || decide (256 < drM o), ofBadCount),
    spanRange spans, spanAlign spans,
    (decide (256 < drR0 o + drM o), ofAccRange),
    (opFlag0 o && !(t.accRows (drAcc o) (drR0 o) (drM o)).all (AccRow.hasTag p e), ofAccState)]

/-- The MXE's operand checks. -/
def checkMxe (t : Tile) (o : Order) : Option OrdFault :=
  match ordOpcode o with
  | 0x01 => checkAddr o 102
  | 0x02 => checkLdb t o
  | 0x03 => checkMma t o
  | 0x04 => checkDrain t o
  | 0x05 => checkLdacc t o
  | 0x06 => checkAddr o 95
  | _ => checkNop o

/-! ### Work -/

/-- The codes of `k` elements of the row at `addr`. -/
def Tile.rowCodes (t : Tile) (addr w k : Nat) : List Nat :=
  let row := t.readMem addr ((w * k + 7) / 8)
  (List.range k).map (elemOf row w)

/-- LDB (R141). -/
def workLdb (t : Tile) (o : Order) : OrdDone :=
  let d := t.td 0 (mTd o)
  let depth := if bit o.toNat 69 then 128 else 64
  let pitch := rowPitch d.fmt
  let sc := if d.s then [(d.sbase, 32 * (depth / 32))] else []
  match t.readSpans (sc ++ [(d.base, 32 * pitch)]) with
  | (t, some f) => { tile := t, bad := some f }
  | (t, none) =>
    let w := codeBits d.fmt
    let b : BBuf := { fmt := d.fmt, scaled := d.s, te := d.te, t := d.t, depth := depth
                      elems := ((List.range 32).map (fun n => t.rowCodes (d.base + n * pitch) w depth)).flatten
                      scales := if d.s then (t.mem.bytes d.sbase (32 * (depth / 32))).map BitVec.toNat else [] }
    { tile := if mmaBuf o then { t with buf1 := some b } else { t with buf0 := some b } }

/-- The buffer's descriptor as decoding sees it. -/
def BBuf.td (b : BBuf) : Td := tdOf [] 0 |> fun d => { d with fmt := b.fmt, s := b.scaled, te := b.te, t := b.t }

/-- Decoded element (k, n) of a buffer. -/
def BBuf.value (b : BBuf) (k n : Nat) : Fv :=
  b.td.decode (b.elems.getD (n * b.depth + k) 0) (b.scales.getD (n * (b.depth / 32) + k / 32) 0)

/-- A binary32 operand's parts, or a 16-bit one as it stands (R126, R127). -/
def mmaParts (fmt n x : Nat) : List Nat := if fmt = 1 then splitParts x n else [x]

/-- A fresh row of the mode. -/
def freshRow (exactMode : Bool) (e : Int) : AccRow :=
  if exactMode then .exact e (List.replicate 32 {}) else .f32 (List.replicate 32 0)

/-- One A row against the buffer: the new accumulator row and the flags it set (R119, R128, R142). -/
def mmaRow (d : Td) (b : BBuf) (passes : Nat) (codes scales : List Nat) (row : AccRow) : AccRow × Nat :=
  match row with
  | .empty => (.empty, 0)
  | .exact e ws =>
    let a := (List.range b.depth).map (fun k => d.decode (codes.getD k 0) (scales.getD (k / 32) 0))
    (.exact e (ws.mapIdx (fun n w => (List.range b.depth).foldl (fun w k => addProduct w (a.getD k (.nan false)) (b.value k n) e) w)), 0)
  | .f32 cs =>
    let a := (List.range 64).map (fun k => mmaParts d.fmt passes (codes.getD k 0))
    let rs := cs.mapIdx (fun n c =>
      blockStep (if d.fmt = 1 then binary32 else codeFmt d.fmt) passes (c, 0) a
        ((List.range 64).map (fun k => mmaParts d.fmt passes (b.elems.getD (n * b.depth + k) 0))))
    (.f32 (rs.map Prod.fst), rs.foldl (fun f r => f ||| r.2) 0)

/-- MMA (R142). -/
def workMma (t : Tile) (o : Order) : OrdDone :=
  let d := t.td 0 (mTd o)
  match t.bbuf (mmaBuf o) with
  | none => { tile := t }
  | some b =>
    let m := mmaM o
    let pitch := rowPitch d.fmt
    let spr := b.depth / 32
    let sc := if d.s then [(d.sbase, m * spr)] else []
    match t.readSpans (sc ++ [(d.base, m * pitch)]) with
    | (t, some f) => { tile := t, bad := some f }
    | (t, none) =>
      let exactMode := narrow d.fmt
      let w := codeBits d.fmt
      let t := (List.range m).foldl (fun t r =>
        let codes := t.rowCodes (d.base + r * pitch) w b.depth
        let scales := if d.s then (t.mem.bytes (d.sbase + r * spr) spr).map BitVec.toNat else []
        let row := if opFlag0 o then freshRow exactMode (mmaE o) else t.accRow (mmaAcc o) (mmaR0 o + r)
        let (row, fl) := mmaRow d b (mmaPasses o) codes scales row
        { t.setAcc (mmaAcc o) (mmaR0 o + r) row with mxe := t.mxe.numeric fl 0 0 0 }) t
      { tile := t }

/-- The values of a row to be drained, with LOW, HIGH and NONFINITE of each output (R143). -/
def drainVals (partials : Bool) (row : AccRow) : List (Fv × Win) :=
  match row with
  | .empty => []
  | .exact e ws => ws.map (fun w => let c := drainWin partials w; (winValue c e, c))
  | .f32 cs => cs.map (fun c => (decodeFmt binary32 false c, {}))

/-- The encodings of a drained row, its scale byte, and per output its flags (R143). -/
def drainRow (o : Order) (d : Td) (row : AccRow) : List Nat × Nat × List Nat :=
  let vs := drainVals (drPartial o) row
  let f := codeFmt d.fmt
  let nv := vs.map (fun p => if p.2.nonfinite && !drPartial o then NV else 0)
  if drPartial o then (vs.map (fun p => winBits p.2), 0, nv)
  else
    let xs := vs.map (fun p => p.1.scale (if d.te then 127 - (d.t : Int) else 0))
    if d.s then
      let (x, es, fl) := computedBlock f (drRM o) xs (xs.map (fun _ => 0))
      (es, x, nv.map (fun n => n ||| fl))
    else match row with
      | .f32 cs => if d.fmt = 1 then (cs, 0, nv) else
          let r := xs.map (convert f (drRM o) (drSat o) 0)
          (r.map Prod.fst, 0, r.map Prod.snd)
      | _ =>
        let r := xs.map (convert f (drRM o) (drSat o) 0)
        (r.map Prod.fst, 0, List.zipWith (fun a b => a ||| b) nv (r.map Prod.snd))

/-- The taps of one drained row, in column order; a block-scaled store tells per element whether it saturated. -/
def drainTaps (o : Order) (d : Td) (row : AccRow) : List Tap :=
  let f := codeFmt d.fmt
  let vs := drainVals (drPartial o) row
  let xs := vs.map (fun p => p.1.scale (if d.te then 127 - (d.t : Int) else 0))
  let x := if d.s && !drPartial o then (computedBlock f (drRM o) xs (xs.map (fun _ => 0))).1 else 127
  let sat := fun (y : Fv) =>
    if drPartial o then false
    else if d.s then storeSat f true y (if x = 0xFF then 0 else (convert f (drRM o) true 0 (y.scale (127 - (x : Int)))).2)
    else storeSat f (drSat o) y (convert f (drRM o) (drSat o) 0 y).2
  List.zipWith (fun p y => { slot := d.tap, v := p.1, sat := sat y, low := p.2.low, high := p.2.high, nonfinite := p.2.nonfinite }) vs xs

/-- DRAIN: whole blocks are written, the bytes beyond the rows zero (R143). It reads a clamped copy: without CLEAR the accumulator
keeps A and its flags as they were. [DESIGN CHOICE: log 184] -/
def workDrain (t : Tile) (o : Order) : OrdDone :=
  let d := t.td 0 (mTd o)
  let m := drM o
  let rows := (List.range m).map (fun r => t.accRow (drAcc o) (drR0 o + r))
  let outs := rows.map (drainRow o d)
  let w := if drPartial o then 128 else codeBits d.fmt
  let pitch := outPitch o d.fmt
  let elems := outs.foldr (fun r acc => packElems w r.1 + acc <<< (8 * pitch)) 0
  let scales := outs.foldr (fun r acc => r.2.1 % 256 + acc * 256) 0
  let t := t.writeBlocks d.base (cdiv (m * pitch) 512) elems
  let t := if d.s && !drPartial o then t.writeBlocks d.sbase 1 scales else t
  let ws := (rows.map (drainVals (drPartial o))).flatten.map Prod.snd
  let count := fun (p : Win → Bool) => (ws.filter p).length
  let flags := (outs.map (fun r => r.2.2.foldl (fun a b => a ||| b) 0)).foldl (fun a b => a ||| b) 0
    ||| (if ws.any Win.low then nsLow else 0) ||| (if ws.any Win.high then nsHigh else 0)
    ||| (if drPartial o && ws.any Win.nonfinite then nsNonfinite else 0)
  let t := { t with mxe := t.mxe.numeric flags (count Win.low) (count Win.high) (count Win.nonfinite) }
  let t := if drClear o then (List.range m).foldl (fun t r => t.setAcc (drAcc o) (drR0 o + r) .empty) t else t
  { tile := t, taps := (rows.map (drainTaps o d)).flatten }

/-- One loaded row combined into an accumulator row (R144), with the flags of its additions. -/
def ldaccRow (add partial_ : Bool) (e : Int) (codes : List Nat) (row : AccRow) : AccRow × Nat :=
  if partial_ then
    let ws := codes.map winOfBits
    match add, row with
    | true, .exact e' old => (.exact e' (List.zipWith combineWin old ws), 0)
    | _, _ => (.exact e ws, 0)
  else
    match add, row with
    | true, .f32 old =>
      let r := List.zipWith (fun a b => addEnc binary32 0 (a, 0) (b, 0)) old codes
      (.f32 (r.map Prod.fst), r.foldl (fun f p => f ||| p.2) 0)
    | _, _ => (.f32 codes, 0)

/-- LDACC (R144). -/
def workLdacc (t : Tile) (o : Order) : OrdDone :=
  let d := t.td 0 (mTd o)
  let m := drM o
  let p := drPartial o
  let pitch := if p then 512 else 128
  match t.readSpan d.base (m * pitch) with
  | (t, some f) => { tile := t, bad := some f }
  | (t, none) =>
    let t := (List.range m).foldl (fun t r =>
      let codes := t.rowCodes (d.base + r * pitch) (if p then 128 else 32) 32
      let (row, fl) := ldaccRow (opFlag0 o) p (mmaE o) codes (t.accRow (drAcc o) (drR0 o + r))
      { t.setAcc (drAcc o) (drR0 o + r) row with mxe := t.mxe.numeric fl 0 0 0 }) t
    { tile := t }

/-- MXE NOP (R135). -/
def execMxeNop (t : Nat) (s : State) : Out := orderRow t 0 0x00 [] (fun t _ => { tile := t }) s
/-- MXE LDTD (R138). -/
def execMxeLdtd (t : Nat) (ups : List (Nat × Bool)) (s : State) : Out := orderRow t 0 0x01 ups (workLdtd 0) s
/-- LDB (R141). -/
def execLdb (t : Nat) (ups : List (Nat × Bool)) (s : State) : Out := orderRow t 0 0x02 ups workLdb s
/-- MMA (R142). -/
def execMma (t : Nat) (ups : List (Nat × Bool)) (s : State) : Out := orderRow t 0 0x03 ups workMma s
/-- DRAIN (R143). -/
def execDrain (t : Nat) (s : State) : Out := orderRow t 0 0x04 [] workDrain s
/-- LDACC (R144). -/
def execLdacc (t : Nat) (ups : List (Nat × Bool)) (s : State) : Out := orderRow t 0 0x05 ups workLdacc s
/-- MXE STAT (R157). -/
def execMxeStat (t : Nat) (s : State) : Out := orderRow t 0 0x06 [] (workStat 0) s

end Sys2Proof.Machine
end

