-- ==== Sys2Proof/Machine/Trans.lean ====
section
/-! DEFINITION. Correctly rounded transcendental functions (R150, R264): an enclosure of the exact real result in
fixed point, refined until both ends round alike. A fixed-point number at `q` bits is an Int in units of 2^-q; every
series below loses less than 2^40 units, so it is run with 64 bits to spare and its result is taken ± 2^40. -/

namespace Sys2Proof.Machine

/-- Truncated product of two fixed-point numbers. -/
def fxMul (q : Nat) (a b : Int) : Int := a * b / 2 ^ q

/-- m × 2^e in fixed point, rounded down. -/
def fxOf (q : Nat) (neg : Bool) (m : Nat) (e : Int) : Int :=
  let k := e + q
  let a : Int := if neg then -(m : Int) else m
  if 0 ≤ k then a * 2 ^ k.toNat else a / 2 ^ (-k).toNat

/-- Σ of x^i / i!: `t` is the running term, `i` its index. -/
def expSeries (q : Nat) (x : Int) : Nat → Nat → Int → Int → Int
  | 0, _, _, acc => acc
  | n + 1, i, t, acc =>
    if t = 0 then acc
    else expSeries q x n (i + 1) (fxMul q t x / (i + 1)) (acc + t)

/-- Σ of ± x^(2i+c) / (2i+c)!: sine from term x, cosine from term 1; `y` is x squared. -/
def trigSeries (q : Nat) (y : Int) : Nat → Nat → Int → Int → Int
  | 0, _, _, acc => acc
  | n + 1, i, t, acc =>
    if t = 0 then acc
    else trigSeries q y n (i + 2) (-(fxMul q t y) / ((i + 1) * (i + 2))) (acc + t)

/-- Σ of s^i × p / (2i + 1) with p running over x^(2i+1): atanh for `s` = 1, atan for `s` = -1; `y` is x squared. -/
def atanSeries (q : Nat) (y s : Int) : Nat → Nat → Int → Int → Int
  | 0, _, _, acc => acc
  | n + 1, i, p, acc =>
    if p = 0 then acc
    else atanSeries q y s n (i + 2) (s * fxMul q p y) (acc + p / i)

/-- ln 2. -/
def ln2Fx (q : Nat) : Int :=
  let x : Int := 2 ^ q / 3
  2 * atanSeries q (fxMul q x x) 1 q 1 x 0

/-- π by Machin's formula. -/
def piFx (q : Nat) : Int :=
  let a : Int := 2 ^ q / 5
  let b : Int := 2 ^ q / 239
  16 * atanSeries q (fxMul q a a) (-1) q 1 a 0 - 4 * atanSeries q (fxMul q b b) (-1) q 1 b 0

/-- e^x of a fixed-point x as (fixed-point value in [1, 2), exponent of two). -/
def expFx (q : Nat) (x : Int) : Int × Int :=
  let l := ln2Fx q
  let k := x / l
  (expSeries q (x - k * l) (q + 1) 0 (2 ^ q) 0, k)

/-- ln of m × 2^e, m > 0, in fixed point. -/
def lnFx (q : Nat) (m : Nat) (e : Int) : Int :=
  let b := m.log2
  let f : Int := fxOf q false m (-(b : Int))
  let x : Int := (f - 2 ^ q) * 2 ^ q / (f + 2 ^ q)
  2 * atanSeries q (fxMul q x x) 1 (q + 1) 1 x 0 + (e + b) * ln2Fx q

/-- (sin, cos) of r in fixed point, |r| below 2. -/
def sincosFx (q : Nat) (r : Int) : Int × Int :=
  let y := fxMul q r r
  (trigSeries q y (q + 2) 1 r 0, trigSeries q y (q + 2) 0 (2 ^ q) 0)

/-- Σ of (-1)^n x^(2n+1) / (n! (2n+1)): `p` runs over (-1)^n x^(2n+1) / n!. -/
def erfSeries (q : Nat) (y : Int) : Nat → Nat → Int → Int → Int
  | 0, _, _, acc => acc
  | n + 1, i, p, acc =>
    if p = 0 ∧ 0 < i then acc
    else erfSeries q y n (i + 1) (-(fxMul q p y) / (i + 1)) (acc + p / (2 * i + 1))

/-- An enclosure: value v ± 2^40 in units of 2^x. -/
structure Enc where
  v : Int
  x : Int
  deriving DecidableEq, Repr

/-- Rounds an enclosure into format `f` when both of its ends round alike. -/
def Enc.round? (f : Fmt) (rm : Nat) (sat : Bool) (c : Enc) : Option (Nat × Nat) :=
  let one (a : Int) := roundTo f rm sat 0 (a < 0) (2 * a.natAbs + 1) (c.x - 1)
  let lo := one (c.v - 2 ^ 40)
  let hi := one (c.v + 2 ^ 40)
  if lo = hi then some lo else none

/-- Refines an enclosure, doubling its bits, until it rounds; the last enclosure decides where the fuel ends.
[DEDUCED: log 149] -/
def refine (f : Fmt) (rm : Nat) (sat : Bool) (g : Nat → Enc) : Nat → Nat → Nat × Nat
  | 0, q => let c := g q; roundTo f rm sat 0 (c.v < 0) (2 * c.v.natAbs + 1) (c.x - 1)
  | n + 1, q =>
    match (g q).round? f rm sat with
    | some r => r
    | none => refine f rm sat g n (2 * q)

/-- The magnitude of a value as a power of two. -/
def lgOf (m : Nat) (e : Int) : Int := e + m.log2

/-- Starting precision for an argument of magnitude 2^g. -/
def startQ (g : Int) : Nat := 256 + 3 * (-g).toNat

/-- The enclosure of sin (`c` false) or cos (`c` true) of `t` × m × 2^e, t = 1, or π where `byPi`. -/
def trigEnc (cosine byPi neg : Bool) (m : Nat) (e : Int) (q : Nat) : Enc :=
  let big := (lgOf m e).toNat + 8
  let qq := q + big + 64
  let pi := piFx qq
  -- the argument in units of π/2: a whole number of quarters and a rest in radians
  let (quad, r) : Int × Int :=
    if byPi then
      let y := fxOf qq neg m (e + 1)
      let k := (y + 2 ^ (qq - 1)) / 2 ^ qq
      (k, fxMul qq (y - k * 2 ^ qq) pi / 2)
    else
      let y := fxOf qq neg m e
      let k := (2 * y + pi / 2) / pi
      (k, y - k * pi / 2)
  let (s, c) := sincosFx qq r
  let j := ((quad + (if cosine then 1 else 0)) % 4).toNat
  let v := match j with
    | 0 => s
    | 1 => c
    | 2 => -s
    | _ => -c
  { v := v / 2 ^ big, x := -(q + 64 : Nat) }

/-- The enclosure of e^x × 2^0 of x = m × 2^e, or of 2^x where `two`. -/
def expEnc (two neg : Bool) (m : Nat) (e : Int) (q : Nat) : Enc :=
  let qq := q + 64
  let x := fxOf qq neg m e
  let x := if two then fxMul qq x (ln2Fx qq) else x
  let (v, k) := expFx qq x
  { v := v, x := k - qq }

/-- The enclosure of tanh or of the logistic function of x. -/
def sigmoidEnc (tanh neg : Bool) (m : Nat) (e : Int) (q : Nat) : Enc :=
  let qq := q + 128
  -- E = e^(-2|x|) (tanh) or e^(-|x|) (logistic), in (0, 1]
  let (v, k) := expFx qq (fxOf qq true m (if tanh then e + 1 else e))
  let ee : Int := v / 2 ^ (-k).toNat
  let one : Int := 2 ^ qq
  if tanh then
    let t := (one - ee) * one / (one + ee)
    { v := (if neg then -t else t) / 2 ^ 64, x := -(q + 64 : Nat) }
  else if neg then
    -- e^x / (1 + e^x), kept to full relative precision
    { v := v * one / (one + ee) / 2 ^ 64, x := k - (q + 64 : Nat) }
  else { v := one * one / (one + ee) / 2 ^ 64, x := -(q + 64 : Nat) }

/-- The enclosure of erf x, |x| < 8. -/
def erfEnc (neg : Bool) (m : Nat) (e : Int) (q : Nat) : Enc :=
  let qq := q + 320
  let x := fxOf qq neg m e
  let s := erfSeries qq (fxMul qq x x) (4 * qq + 400) 0 x 0
  let rootPi : Int := isqrt ((piFx qq).natAbs * 2 ^ qq)
  { v := 2 * s * 2 ^ qq / rootPi / 2 ^ 256, x := -(q + 64 : Nat) }

/-- Is x a whole number? Its value if so. -/
def wholeOf (neg : Bool) (m : Nat) (e : Int) : Option Int :=
  let (t, rem, _) := splitQ m e 0
  if rem = 0 then some (if neg then -(t : Int) else t) else none

/-- A result barely below or above an exact one: 1 - tiny, or tiny itself. -/
def nearOne (neg : Bool) : Bool × Nat × Int := (neg, 2 ^ 4096 - 1, -4096)

/-- The exact exponent of a power of two. -/
def powTwo? (m : Nat) (e : Int) : Option Int := if m = 2 ^ m.log2 then some (e + m.log2) else none

/-- VTR functions 0x00 to 0x0C on a value already in the working format (R150). -/
def vtrFn (f : Fmt) (rm : Nat) (sat : Bool) (fn : Nat) (a b : Fv) : Nat × Nat :=
  let nan (fl : Nat) := (f.nanEnc, fl)
  let exact (r : Fv) (fl : Nat) := finish f rm sat (r, fl)
  let one : Fv := .fin false 1 0
  let zero : Fv := .fin false 0 0
  let rnd (p : Bool × Nat × Int) := roundTo f rm sat 0 p.1 p.2.1 p.2.2
  match fn with
  | 0x04 => finish f rm sat (fvDiv one a)
  | 0x05 => finish f rm sat (fvDiv a b)
  | 0x06 => finish f rm sat (fvSqrt a)
  | 0x07 => finish f rm sat (fvRsqrt a)
  | _ =>
    match a with
    | .nan s => nan (if s then NV else 0)
    | .inf n =>
      (match fn with
       | 0x00 | 0x01 => if n then exact zero 0 else exact a 0
       | 0x02 | 0x03 => if n then nan NV else exact a 0
       | 0x08 | 0x0C => exact (one.withSign n) 0
       | 0x09 => if n then exact zero 0 else exact one 0
       | _ => nan NV)
    | .fin n m e =>
      let g := lgOf m e
      if m = 0 then
        (match fn with
         | 0x00 | 0x01 | 0x0B => exact one 0
         | 0x02 | 0x03 => exact (.inf true) DZ
         | 0x09 => exact (.fin false 1 (-1)) 0
         | _ => exact a 0)
      else match fn with
        | 0x00 =>
          if 12 ≤ g then rnd (false, 1, if n then -6000 else 6000)
          else refine f rm sat (expEnc false n m e) 6 (startQ g)
        | 0x01 =>
          if 13 ≤ g then rnd (false, 1, if n then -6000 else 6000)
          else (match wholeOf n m e with
            | some k => rnd (false, 1, k)
            | none => refine f rm sat (expEnc true n m e) 6 (startQ g))
        | 0x02 =>
          if n then nan NV
          else if powTwo? m e = some 0 then exact zero 0
          else refine f rm sat (fun q => { v := lnFx (q + 64) m e, x := -(q + 64 : Nat) }) 6 256
        | 0x03 =>
          if n then nan NV
          else (match powTwo? m e with
            | some k => exact (.fin (k < 0) k.natAbs 0) 0
            | none => refine f rm sat (fun q =>
                let qq := q + 128
                { v := lnFx qq m e * 2 ^ qq / ln2Fx qq / 2 ^ 64, x := -(q + 64 : Nat) }) 6 256)
        | 0x08 => if 12 ≤ g then rnd (nearOne n) else refine f rm sat (sigmoidEnc true n m e) 6 (startQ g)
        | 0x09 =>
          if 12 ≤ g then rnd (if n then (false, 1, -6000) else nearOne false)
          else refine f rm sat (sigmoidEnc false n m e) 6 (startQ g)
        | 0x0A => refine f rm sat (trigEnc false false n m e) 6 (startQ g)
        | 0x0B => refine f rm sat (trigEnc true false n m e) 6 (startQ g)
        | 0x0C => if 3 ≤ g then rnd (nearOne n) else refine f rm sat (erfEnc n m e) 6 (startQ g)
        | _ => nan 0

/-- The natural logarithm of a positive value, rounded to nearest even in format `f`. -/
def lnRne (f : Fmt) (v : Fv) : Nat := (vtrFn f 0 false 0x02 v v).1

/-- cos(π x) rounded to nearest even in binary64, x = m × 2^e (R264). -/
def cospiRne (neg : Bool) (m : Nat) (e : Int) : Nat :=
  if m = 0 then (roundTo binary64 0 false 0 false 1 0).1
  else match wholeOf neg m (e + 1) with
    | some k => if k % 2 = 1 then 0 else (roundTo binary64 0 false 0 (k % 4 = 2) 1 0).1
    | none => (refine binary64 0 false (trigEnc true true neg m e) 6 (startQ (lgOf m e))).1

end Sys2Proof.Machine
end

