-- ==== Sys2Proof/Machine/Vxe.lean ====
section
/-! DEFINITION. The vector engine's orders: operand checks and work (R147 to R153, R158, R283 to R286). -/

namespace Sys2Proof.Machine

/-! ### Operands (R148) -/

def vRM (o : Order) : Nat := ordField o 56 3
def vSat (o : Order) : Bool := bit o.toNat 59
def vWF (o : Order) : Bool := bit o.toNat 60
def vK2 (o : Order) : Bool := bit o.toNat 61
def vK3 (o : Order) : Bool := bit o.toNat 62
def vX (o : Order) : Bool := bit o.toNat 63
def vTDD (o : Order) : Nat := ordField o 64 4
def vTD1 (o : Order) : Nat := ordField o 68 4
def vTD2 (o : Order) : Nat := ordField o 72 4
def vTD3 (o : Order) : Nat := ordField o 76 4
def vN (o : Order) : Nat := ordField o 80 24
def vR (o : Order) : Nat := ordField o 104 16
def vFunc (o : Order) : Nat := ordField o 120 8

def opVEW : Nat := 0x10
def opVTR : Nat := 0x11
def opVRED : Nat := 0x12
def opVSAMPLE : Nat := 0x13
def opVRAND : Nat := 0x14

/-- Functions each opcode defines (R149 to R152). -/
def vFuncs (op : Nat) : Nat :=
  match op with
  | 0x10 => 16
  | 0x11 => 13
  | 0x12 => 8
  | 0x13 => 2
  | _ => 3

/-- Tensor sources of a function. -/
def vSources (op fn : Nat) : Nat :=
  match op with
  | 0x10 => if fn = 0 ∨ fn = 8 ∨ fn = 9 then 1 else if fn = 4 ∨ fn = 5 ∨ fn = 0xE ∨ fn = 0xF then 3 else 2
  | 0x11 => if fn = 5 then 2 else 1
  | 0x12 => 1
  | 0x13 => 1
  | _ => if fn = 2 then 1 else 0

/-- Functions whose TD2 must name a constant (R151, R152). -/
def needsK2 (op fn : Nat) : Bool :=
  (op == 0x12 && decide (6 ≤ fn)) || (op == 0x13 && fn == 1) || (op == 0x14 && decide (1 ≤ fn))

/-- DROPOUT's TD3 must name a constant too (R152). -/
def needsK3 (op fn : Nat) : Bool := op == 0x14 && fn == 2

/-- A source: a stream through a descriptor, or a constant register. -/
structure VSrc where
  td : Td
  const : Option Fv := none

/-- The sources of an order, in the order of its fields. -/
def vSrcs (t : Tile) (o : Order) : List VSrc :=
  let n := vSources (ordOpcode o) (vFunc o)
  let k := fun (isK : Bool) (i : Nat) =>
    if isK then { td := t.td 1 i, const := some (decodeFmt binary64 false (t.vkVal i).toNat) : VSrc } else { td := t.td 1 i }
  let arith := ordOpcode o == opVEW || ordOpcode o == opVTR
  (if 1 ≤ n then [{ td := t.td 1 (vTD1 o) : VSrc }] else [])
    ++ (if 2 ≤ n then [k (arith && vK2 o) (vTD2 o)] else []) ++ (if 3 ≤ n then [k (arith && vK3 o) (vTD3 o)] else [])

/-- Are the destination's rows packed one result each (R147)? -/
def vPacked (o : Order) : Bool := ordOpcode o == opVRED || ordOpcode o == opVSAMPLE

/-- Is the result stored through R149 into TDD's format, or as partial, u32 or bits? -/
def vStores (o : Order) : Bool :=
  let op := ordOpcode o
  let fn := vFunc o
  if op = opVRED then !(decide (6 ≤ fn) && vX o) && !(fn == 4 || fn == 5)
  else if op = opVSAMPLE then false
  else if op = opVRAND then fn == 2
  else true

/-- Bits of one destination element (R147). -/
def vDestBits (o : Order) (d : Td) : Nat :=
  let op := ordOpcode o
  if vStores o then codeBits d.fmt
  else if op = opVRED && decide (6 ≤ vFunc o) then 128
  else if op = opVRAND && vFunc o == 1 then 1
  else 32

/-- Row pitch of N elements of `w` bits (R147). -/
def vPitch (n w : Nat) : Nat := cdiv (n * w) 4096 * 512
/-- Row pitch of the scales of N elements (R147). -/
def vScalePitch (n : Nat) : Nat := cdiv (cdiv n 32) 64 * 64

/-- Spans of a stream: elements, then scales where the order reads or writes them, each of its exact bytes (R137).
[DESIGN CHOICE: log 187] -/
def vSpans (d : Td) (w n r : Nat) (packed scales : Bool) (align : Nat) : List Span :=
  let el := if d.scal then cdiv w 8 else if d.rowb || packed then cdiv (r * w) 8 else r * vPitch n w
  let sc := if d.scal then 1 else if d.rowb || packed then cdiv r 32 else (r - 1) * vScalePitch n + cdiv n 32
  { field := d.base, align := 512, len := el : Span } :: (if scales then [{ field := d.sbase, align := align, len := sc : Span }] else [])

/-- Is a constant register an integer in the range of E (R151)? -/
def vkExp (x : DWord) : Option Int :=
  match decodeFmt binary64 false x.toNat with
  | .fin n m e =>
    let (i, nx) := roundInt 1 0 n m e
    if nx || decide (i < -32768) || decide (32767 < i) then none else some i
  | _ => none

/-- Constant checks (R151, R152). -/
def badConst (t : Tile) (op fn : Nat) (o : Order) : Bool :=
  let v := decodeFmt binary64 false (t.vkVal (vTD2 o)).toNat
  let zero := Fv.fin false 0 0
  (needsK2 op fn && (!vK2 o ||
    (if op = opVRED then (vkExp (t.vkVal (vTD2 o))).isNone
     else if op = opVSAMPLE then !(match v with | .fin n m _ => !n && m ≠ 0 | _ => false)
     else v.isNan || fvLt v zero || fvLt (.fin false 1 0) v)))
  || (needsK3 op fn && !vK3 o)

/-- Operand checks of the arithmetic orders, in their precedence (R148, R158); BAD_FORMAT, BAD_SCALING and BAD_ROUNDING by their
code where several fail. [DESIGN CHOICE: log 188] -/
def checkArith (t : Tile) (o : Order) : Option OrdFault :=
  let op := ordOpcode o
  let fn := vFunc o
  let known := decide (fn < vFuncs op)
  let d := t.td 1 (vTDD o)
  let srcs := if known then (vSrcs t o).filter (fun s => s.const.isNone) else []
  let stores := known && vStores o
  let xOk := op == opVEW || op == opVTR || (op == opVRED && decide (6 ≤ fn) && decide (fn ≤ 7))
  let partial_ := op == opVRED && vX o
  let spans := vSpans d (vDestBits o d) (vN o) (vR o) (vPacked o)
      (stores && (d.s || (vX o && !(op == opVRED)))) 512
    ++ (srcs.map (fun s => vSpans s.td (codeBits s.td.fmt) (vN o) (vR o) false s.td.s 64)).flatten
  firstFault [
    (vX o && !xOk, ofInvalid),
    ((stores && decide (0xA < d.fmt)) || srcs.any (fun s => decide (0xA < s.td.fmt)), ofBadFormat),
    ((stores && d.badScaling true) || (known && partial_ && (d.s || d.te)) || srcs.any (fun s => s.td.badScaling false), ofBadScaling),
    (decide (4 < vRM o) || (op == opVTR && vRM o == 4), ofBadRounding),
    (known && (d.badDescriptor false || srcs.any (fun s => s.td.badDescriptor true)), ofBadDescriptor),
    (!known, ofBadFunc),
    (vN o = 0 || vR o = 0, ofBadCount),
    spanRange spans, spanAlign spans,
    (badConst t op fn o, ofBadConstant)]

/-- The VXE's operand checks. -/
def checkVxe (t : Tile) (o : Order) : Option OrdFault :=
  match ordOpcode o with
  | 0x00 => checkNop o
  | 0x01 => checkAddr o 102
  | 0x02 => checkAddr o 102
  | 0x06 => checkAddr o 95
  | _ => checkArith t o

/-! ### One order under way (R149, R153) -/

/-- A value to be stored, with its random word and the window flags it carries. -/
structure VItem where
  v : Fv
  u : Nat := 0
  low : Bool := false
  high : Bool := false

/-- What of an order's work stands between its periods: blocks read per stream, blocks being filled, pending results of a
computed-scale block, taps, numeric events and draws. -/
structure VRun where
  tile : Tile
  cache : Tbl (Tbl Nat) := []
  bad : Option (Nat × Bool) := none
  eb : Tbl Nat := []
  sb : Tbl Nat := []
  pend : List VItem := []
  taps : List Tap := []
  flags : Nat := 0
  low : Nat := 0
  high : Nat := 0
  nonfinite : Nat := 0
  draws : Nat := 0

/-- A block of 512 B in stream `id` is read once, the first time a group touches it. -/
def VRun.readBlock (r : VRun) (id b : Nat) : VRun :=
  let c := Tbl.get [] r.cache id
  if r.bad.isSome || (Tbl.find c b).isSome then r
  else match r.tile.readBlocks b 1 with
    | (t, some f) => { r with tile := t, bad := some f }
    | (t, none) => { r with tile := t, cache := r.cache.set id (Tbl.set c b (t.readMem (512 * b) 512)) }

/-- Reads every block that bits [lo, hi) of tile memory touch. -/
def VRun.readBits (r : VRun) (id lo hi : Nat) : VRun :=
  (List.range ((hi - 1) / 4096 + 1 - lo / 4096)).foldl (fun r k => r.readBlock id (lo / 4096 + k)) r

/-- `w` bits at bit address `p` of the blocks read. -/
def VRun.getBits (r : VRun) (id p w : Nat) : Nat :=
  let c := Tbl.get [] r.cache id
  let v := Tbl.get 0 c (p / 4096)
  let off := p % 4096
  if off + w ≤ 4096 then bits v off w
  else bits v off (4096 - off) + bits (Tbl.get 0 c (p / 4096 + 1)) 0 (off + w - 4096) <<< (4096 - off)

/-- Places `w` bits at bit address `p` of blocks being filled. -/
def placeBits (t : Tbl Nat) (p w v : Nat) : Tbl Nat :=
  let b := p / 4096
  let off := p % 4096
  let v := v % 2 ^ w
  let t := t.set b (Tbl.get 0 t b + (v <<< off) % 2 ^ 4096)
  if off + w ≤ 4096 then t else t.set (b + 1) (Tbl.get 0 t (b + 1) + v >>> (4096 - off))

/-- What an arithmetic order fixes for all its periods. -/
structure VCtx where
  op : Nat
  fn : Nat
  rm : Nat
  sat : Bool
  wf : Fmt
  x : Bool
  n : Nat
  r : Nat
  d : Td
  srcs : List VSrc
  k2 : Fv
  k3 : Fv
  e : Int
  k0 : Nat
  k1 : Nat
  q : Nat
  packed : Bool
  stores : Bool
  w : Nat

/-- The context of an order. -/
def vCtx (t : Tile) (o : Order) : VCtx :=
  let d := t.td 1 (vTDD o)
  { op := ordOpcode o, fn := vFunc o, rm := vRM o, sat := vSat o, wf := if vWF o then binary64 else binary32, x := vX o
    n := vN o, r := vR o, d := d, srcs := vSrcs t o
    k2 := decodeFmt binary64 false (t.vkVal (vTD2 o)).toNat, k3 := decodeFmt binary64 false (t.vkVal (vTD3 o)).toNat
    e := (vkExp (t.vkVal (vTD2 o))).getD 0, k0 := t.gen.keyLo.toNat, k1 := t.gen.keyHi.toNat
    q := if vWF o then 64 else 128, packed := vPacked o, stores := vStores o, w := vDestBits o d }

/-- Groups of a row, and of the order (R153). -/
def VCtx.gpr (c : VCtx) : Nat := cdiv c.n c.q
def VCtx.groups (c : VCtx) : Nat := c.r * c.gpr
/-- The lag D of the writes behind the reads (R153). -/
def VCtx.lag (c : VCtx) : Nat := if c.op = opVEW ∨ c.op = opVRAND then 1 else 2
/-- Are destination scales computed and written? -/
def VCtx.dscale (c : VCtx) : Bool := c.stores && c.d.s && !(c.x && c.op != opVRED)
/-- Are destination scales supplied (X = 1)? Of a destination with S = 0 the stream is checked and not read.
[DESIGN CHOICE: log 186] -/
def VCtx.supplied (c : VCtx) : Bool := c.stores && c.d.s && c.x && c.op != opVRED && decide (4 ≤ c.d.fmt)

/-- Bit address of element (i, j) of a source. -/
def VCtx.srcBit (c : VCtx) (s : VSrc) (i j : Nat) : Nat :=
  let w := codeBits s.td.fmt
  8 * s.td.base + (if s.td.scal then 0 else if s.td.rowb then i * w else 8 * i * vPitch c.n w + j * w)
/-- Byte address of the scale of element (i, j) of a source. -/
def VCtx.srcScale (c : VCtx) (s : VSrc) (i j : Nat) : Nat :=
  s.td.sbase + (if s.td.scal then 0 else if s.td.rowb then i / 32 else i * vScalePitch c.n + j / 32)
/-- Bit address of element (i, j), or of result i, of the destination. -/
def VCtx.dstBit (c : VCtx) (i j : Nat) : Nat :=
  8 * c.d.base + (if c.packed then i * c.w else 8 * i * vPitch c.n c.w + j * c.w)
/-- Byte address of a destination scale. -/
def VCtx.dstScale (c : VCtx) (i j : Nat) : Nat :=
  c.d.sbase + (if c.packed then i / 32 else i * vScalePitch c.n + j / 32)

/-- The reads of one group: each source's elements, its scales, then supplied destination scales (R153). -/
def VCtx.readGroup (c : VCtx) (r : VRun) (i j0 j1 : Nat) : VRun :=
  let r := (List.range c.srcs.length).foldl (fun r k =>
    match c.srcs[k]? with
    | some s =>
      if s.const.isSome then r
      else
        let r := r.readBits (2 * k) (c.srcBit s i j0) (c.srcBit s i (j1 - 1) + codeBits s.td.fmt)
        if s.td.s then r.readBits (2 * k + 1) (8 * c.srcScale s i j0) (8 * c.srcScale s i (j1 - 1) + 8) else r
    | none => r) r
  if c.supplied then r.readBits 16 (8 * c.dstScale i j0) (8 * c.dstScale i (j1 - 1) + 8) else r

/-- Decoded source value (i, j), scales included. -/
def VCtx.value (c : VCtx) (r : VRun) (k i j : Nat) : Fv :=
  match c.srcs[k]? with
  | some s =>
    (match s.const with
     | some v => v
     | none => s.td.decode (r.getBits (2 * k) (c.srcBit s i j) (codeBits s.td.fmt))
        (if s.td.s then r.getBits (2 * k + 1) (8 * c.srcScale s i j) 8 else 127))
  | none => .fin false 0 0

/-- rs of R149; a reduction rounds to nearest even except at its store (R151). -/
def VCtx.rs (c : VCtx) : Nat := if c.rm = 4 ∨ c.op = opVRED then 0 else c.rm

/-- A source value brought into WF, with its flags (R116, R149). -/
def VCtx.toWF (c : VCtx) (v : Fv) : Fv × Nat :=
  let (x, fl) := convert c.wf c.rs c.sat 0 v
  (decodeFmt c.wf false x, fl)

/-- An operation's result rounded once to WF. -/
def VCtx.fin (c : VCtx) (v : Fv × Nat) : Fv × Nat :=
  let (x, fl) := finish c.wf c.rs c.sat v
  (decodeFmt c.wf false x, fl)

/-- +1.0 or +0. -/
def boolFv (b : Bool) : Fv := if b then .fin false 1 0 else .fin false 0 0

/-- A VEW function on WF values (R149). [DEDUCED: log 23] -/
def VCtx.vew (c : VCtx) (a b z : Fv) : Fv × Nat :=
  let neg := fun (v : Fv) => v.withSign (!v.sign)
  match c.fn with
  | 0x1 => c.fin (fvAdd c.rs a b)
  | 0x2 => c.fin (fvAdd c.rs a (neg b))
  | 0x3 => c.fin (fvMul a b)
  | 0x4 => c.fin (fvFma c.rs a b z)
  | 0x5 => c.fin (fvFma c.rs (neg a) b z)
  | 0x6 => fvMinMax false a b
  | 0x7 => fvMinMax true a b
  | 0x8 => (a.withSign false, 0)
  | 0x9 => (neg a, 0)
  | 0xA => ((boolFv (fvCmp 0 a b).1), 0)
  | 0xB => ((boolFv (fvCmp 1 a b).1), 0)
  | 0xC => ((boolFv (fvCmp 2 a b).1), 0)
  | 0xD => ((boolFv (fvCmp 3 a b).1), 0)
  | 0xE => (if a.isZero then z else b, 0)
  | _ => let (m, f) := fvMinMax true a b; let (y, g) := fvMinMax false m z; (y, f ||| g)

/-- h of R285: floor(p × 2^32). -/
def keepThreshold (p : Fv) : Nat :=
  match p with
  | .fin _ m e => (roundInt 1 0 false m (e + 32)).1.toNat
  | _ => 0

/-- The value y of element (i, j) and the flags of forming it (R149, R150, R152). [DEDUCED: log 25] -/
def VCtx.element (c : VCtx) (r : VRun) (i j u : Nat) : Fv × Nat :=
  if c.op = opVEW ∧ c.fn = 0 then (c.value r 0 i j, 0)
  else if c.op = opVRAND then
    if u < keepThreshold c.k2 then
      let (a, f) := c.toWF (c.value r 0 i j)
      let (g, h) := c.toWF c.k3
      let (y, k) := c.fin (fvMul a g)
      (y, f ||| h ||| k)
    else (.fin false 0 0, 0)
  else
    let (a, f) := c.toWF (c.value r 0 i j)
    let (b, g) := if 2 ≤ c.srcs.length then c.toWF (c.value r 1 i j) else (.fin false 0 0, 0)
    let (z, h) := if 3 ≤ c.srcs.length then c.toWF (c.value r 2 i j) else (.fin false 0 0, 0)
    if c.op = opVTR then
      let (x, k) := vtrFn c.wf c.rs c.sat c.fn a b
      (decodeFmt c.wf false x, f ||| g ||| k)
    else
      let (y, k) := c.vew a b z
      (y, f ||| g ||| h ||| k)

/-- A run of values of one scale block stored through TDD: codes, a computed scale, flags, and per value whether it
saturated (R115, R149). -/
def VCtx.store (c : VCtx) (ys : List VItem) (sup : Nat) : List Nat × Nat × Nat × List Bool :=
  let f := codeFmt c.d.fmt
  let vs := ys.map (fun p => (p.v.scale (if c.d.te then 127 - (c.d.t : Int) else 0), p.u))
  if c.dscale then
    let (x, es, fl) := computedBlock f c.rm (vs.map Prod.fst) (vs.map Prod.snd)
    (es, x, fl, vs.map (fun p =>
      if x = 0xFF then false
      else storeSat f true p.1 (convert f c.rm true p.2
        (p.1.scale (127 - (x : Int) - (if f.isInt then f.intExp else 0)))).2))
  else if c.supplied then
    if sup = 0xFF then (vs.map (fun _ => 0), 0, NV, vs.map (fun _ => false))
    else
      let r := vs.map (fun p => let v := p.1.scale (127 - (sup : Int) - (if f.isInt then f.intExp else 0)); (v, convert f c.rm c.sat p.2 v))
      (r.map (fun p => p.2.1), 0, r.foldl (fun a p => a ||| p.2.2) 0, r.map (fun p => storeSat f c.sat p.1 p.2.2))
  else
    let r := vs.map (fun p => (p.1, convert f c.rm c.sat p.2 p.1))
    (r.map (fun p => p.2.1), 0, r.foldl (fun a p => a ||| p.2.2) 0, r.map (fun p => storeSat f c.sat p.1 p.2.2))

/-- The random word of element (i, j) (R283). -/
def VCtx.u (c : VCtx) (i j : Nat) : Nat := gen32 c.k0 c.k1 c.d.stream 0 (c.d.pos i j)

/-- A stored run placed into the destination's blocks, its first element being (i, j) or result i. -/
def VCtx.place (c : VCtx) (r : VRun) (i j : Nat) (ys : List VItem) : VRun :=
  let sup := if c.supplied then r.getBits 16 (8 * c.dstScale i j) 8 else 127
  let (codes, x, fl, sats) := c.store ys sup
  let eb := (codes.zipIdx).foldl (fun eb p =>
    placeBits eb (if c.packed then c.dstBit (i + p.2) 0 else c.dstBit i (j + p.2)) c.w p.1) r.eb
  let sb := if c.dscale then placeBits r.sb (8 * c.dstScale i j) 8 x else r.sb
  { r with eb := eb, sb := sb, flags := r.flags ||| fl
           taps := r.taps ++ List.zipWith (fun p s => { slot := c.d.tap, v := p.v, sat := s, low := p.low, high := p.high }) ys sats }

/-- The elements [j0, j1) of row i, computed and placed in runs of 32 (R149). -/
def VCtx.elementGroup (c : VCtx) (r : VRun) (i j0 j1 : Nat) : VRun :=
  (List.range (cdiv (j1 - j0) 32)).foldl (fun r b =>
    let a := j0 + 32 * b
    let k := min 32 (j1 - a)
    let drawn := c.rm = 4 ∨ c.op = opVRAND
    let us := (List.range k).map (fun j => if drawn then c.u i (a + j) else 0)
    let ys := (us.zipIdx).map (fun p => (c.element r i (a + p.2) p.1, p.1))
    let r := { r with flags := ys.foldl (fun f y => f ||| y.1.2) r.flags, draws := if drawn then r.draws + k else r.draws }
    c.place r i a (ys.map (fun y => { v := y.1.1, u := y.2 }))) r

/-- The tap of an index or of random bits written: the integer they form (R155). [DEDUCED: log 177] -/
def VCtx.rawTap (c : VCtx) (v : Nat) : Tap := { slot := c.d.tap, v := .fin false v 0 }

/-- BITS and MASK: random words, or one keep bit for each element (R285). -/
def VCtx.randGroup (c : VCtx) (r : VRun) (i j0 j1 : Nat) : VRun :=
  let h := keepThreshold c.k2
  (List.range (j1 - j0)).foldl (fun r k =>
    let u := c.u i (j0 + k)
    let v := if c.fn = 0 then u else b2n (decide (u < h))
    { r with eb := placeBits r.eb (c.dstBit i (j0 + k)) c.w v, draws := r.draws + 1, taps := r.taps ++ [c.rawTap v] }) r

/-- −ln(−ln v) of R286 for u. -/
def gumbel (u : Nat) : Fv :=
  let a := decodeFmt binary64 false (lnRne binary64 (.fin false (2 * u + 1) (-33)))
  let b := decodeFmt binary64 false (lnRne binary64 (a.withSign (!a.sign)))
  b.withSign (!b.sign)

/-- sample_row of R286 over the scores, score j drawn at sub-index 1 + j. [DEDUCED: log 26] -/
def sampleRow (k0 k1 stream pos : Nat) (xs : List Fv) : Nat × Nat :=
  if xs.any Fv.isNan then (0xFFFFFFFE, NV)
  else if xs.all (fun v => match v with | .inf n => n | _ => false) then (0xFFFFFFFF, NV)
  else
    let best := (xs.zipIdx).foldl (fun (b : Option (Nat × Fv × Fv)) p =>
      match p.1 with
      | .inf true => b
      | x =>
        let g := gumbel (gen32 k0 k1 stream (1 + p.2) pos)
        let key := decodeFmt binary64 false (finish binary64 0 false (fvAdd 0 x g)).1
        match b with
        | none => some (p.2, key, g)
        | some (j, bk, bg) =>
          let beats := if key.isInf && bk.isInf then fvLt bg g else fvLt bk key
          if beats then some (p.2, key, g) else some (j, bk, bg)) none
    (match best with
     | some (j, _, _) => j
     | none => 0, 0)

/-- The order of two values with −0 below +0, for ARGMAX and ARGMIN. -/
def fvSame (a b : Fv) : Bool := fvEq a b && (!a.isZero || a.sign == b.sign)

/-- A result that is not stored through R149 is placed as it stands. -/
def VCtx.placeRaw (c : VCtx) (r : VRun) (i v : Nat) : VRun := { r with eb := placeBits r.eb (c.dstBit i 0) c.w v }

/-- A row's index stored at result i, and presented to its tap (R151, R152, R155). -/
def VCtx.placeIndex (c : VCtx) (r : VRun) (i v : Nat) : VRun :=
  let r := c.placeRaw r i v
  { r with taps := r.taps ++ [c.rawTap v] }

/-- A row's result y stored at result i; a computed-scale block is formed at its 32nd result or the last (R147). -/
def VCtx.rowStore (c : VCtx) (r : VRun) (i : Nat) (y : Fv) (low high : Bool) : VRun :=
  let u := if c.rm = 4 then c.u 0 i else 0
  let r := if c.rm = 4 then { r with draws := r.draws + 1 } else r
  if c.dscale then
    let r := { r with pend := r.pend ++ [{ v := y, u := u, low := low, high := high }] }
    if i % 32 = 31 ∨ i + 1 = c.r then { c.place r (i + 1 - r.pend.length) 0 r.pend with pend := [] } else r
  else c.place r i 0 [{ v := y, u := u, low := low, high := high }]

/-- SUMX and SUMSQX: the exact partial of a row (R124, R151). [DEDUCED: log 27] -/
def VCtx.rowPartial (c : VCtx) (vs : List Fv) : Win :=
  vs.foldl (fun w v => combineWin w (toPartial (if c.fn = 7 then (match v with | .fin _ m e => .fin false (m * m) (2 * e) | x => x) else v) c.e)) {}

/-- The result of row i, once its last group has been read (R151, R286). [DEDUCED: log 24] -/
def VCtx.rowGroup (c : VCtx) (r : VRun) (i : Nat) : VRun :=
  let raw := (List.range c.n).map (fun j => c.value r 0 i j)
  if c.op = opVSAMPLE then
    let xs := raw.map c.toWF
    let ys := xs.map (fun p => if c.fn = 1 then decodeFmt binary64 false (finish binary64 0 false (fvDiv p.1 c.k2)).1 else p.1)
    let (v, fl) := sampleRow c.k0 c.k1 c.d.stream (c.d.pos 0 i) ys
    c.placeIndex { r with flags := xs.foldl (fun f p => f ||| p.2) r.flags ||| fl, draws := r.draws + c.n } i v
  else if 6 ≤ c.fn then
    let w := c.rowPartial raw
    let cl := drainWin false w
    let high := if c.x then w.high else cl.high
    let r := { r with
      flags := r.flags ||| (if w.low then nsLow else 0) ||| (if high then nsHigh else 0) ||| (if w.nonfinite then nsNonfinite else 0)
        ||| (if w.nonfinite && !c.x then NV else 0)
      low := r.low + b2n w.low, high := r.high + b2n high, nonfinite := r.nonfinite + b2n w.nonfinite }
    if c.x then { c.placeRaw r i (winBits w) with
      taps := r.taps ++ [{ slot := c.d.tap, v := winValue w c.e, low := w.low, high := w.high, nonfinite := w.nonfinite }] }
    else c.rowStore r i (winValue cl c.e) w.low high
  else
    let xs := raw.map c.toWF
    let r := { r with flags := xs.foldl (fun f p => f ||| p.2) r.flags }
    let vs := xs.map Prod.fst
    let enc := fun (v : Fv) => (finish c.wf 0 c.sat (v, 0)).1
    let addW := fun (a b : Nat × Nat) =>
      let (x, fl) := finish c.wf 0 c.sat (fvAdd 0 (decodeFmt c.wf false a.1) (decodeFmt c.wf false b.1))
      (x, fl ||| a.2 ||| b.2)
    let best := (vs.drop 1).foldl (fun b v => (fvMinMax (c.fn == 2 || c.fn == 4) b v).1) (vs.headD (.fin false 0 0))
    match c.fn with
    | 0 =>
      let (x, fl) := (treeSum addW (vs.map (fun v => (enc v, 0)))).getD (0, 0)
      c.rowStore { r with flags := r.flags ||| fl } i (decodeFmt c.wf false x) false false
    | 1 =>
      let (x, fl) := (treeSum addW (vs.map (fun v => finish c.wf 0 c.sat (fvMul v v)))).getD (0, 0)
      c.rowStore { r with flags := r.flags ||| fl } i (decodeFmt c.wf false x) false false
    | 2 => c.rowStore r i best false false
    | 3 => c.rowStore r i best false false
    | _ =>
      let j := (vs.findIdx? (fun v => if best.isNan then v.isNan else fvSame v best)).getD 0
      c.placeIndex r i j

/-- Blocks no later group writes into, from the bit address at which the later groups begin (R153). -/
def VCtx.doneBit (c : VCtx) (g : Nat) : Nat :=
  let i := (g + 1) / c.gpr
  let j := (g + 1) % c.gpr * c.q
  if c.packed then c.dstBit (if c.dscale then i / 32 * 32 else i) 0 else c.dstBit i j
def VCtx.doneScale (c : VCtx) (g : Nat) : Nat :=
  let i := (g + 1) / c.gpr
  let j := (g + 1) % c.gpr * c.q
  8 * c.dstScale i j

/-- Writes the finished blocks below bit `lim` (all of them at the last group) whole. -/
def flushBlocks (t : Tile) (bs : Tbl Nat) (lim : Nat) (all : Bool) : Tile × Tbl Nat :=
  let done := bs.filter (fun p => all || decide ((p.1 + 1) * 4096 ≤ lim))
  (done.foldl (fun t p => t.writeWhole (512 * p.1) 512 p.2) t, bs.filter (fun p => !(all || decide ((p.1 + 1) * 4096 ≤ lim))))

/-- Period p: the reads and the evaluation of group p, then the writes of group p − D (R153). -/
def VCtx.period (c : VCtx) (r : VRun) (p : Nat) : VRun :=
  if r.bad.isSome then r
  else
    let r := if p < c.groups then
        let i := p / c.gpr
        let j0 := p % c.gpr * c.q
        let j1 := min c.n (j0 + c.q)
        let r := c.readGroup r i j0 j1
        if r.bad.isSome then r
        else if c.packed then (if j1 = c.n then c.rowGroup r i else r)
        else if c.op = opVRAND ∧ c.fn < 2 then c.randGroup r i j0 j1
        else c.elementGroup r i j0 j1
      else r
    if r.bad.isSome || decide (p < c.lag) then r
    else
      let g := p - c.lag
      let last := g + 1 == c.groups
      let (t, sb) := flushBlocks r.tile r.sb (c.doneScale g) last
      let (t, eb) := flushBlocks t r.eb (c.doneBit g) last
      { r with tile := t, sb := sb, eb := eb }

/-- All periods of an arithmetic order (R153); a read that fails ends it, the writes made staying (R95). -/
def workArith (t : Tile) (o : Order) : OrdDone :=
  let c := vCtx t o
  let r := (List.range (c.groups + c.lag)).foldl c.period { tile := t : VRun }
  let t := { r.tile with
    vxe := r.tile.vxe.numeric r.flags r.low r.high r.nonfinite
    gen := { r.tile.gen with count := r.tile.gen.count + BitVec.ofNat 64 r.draws } }
  { tile := t, taps := r.taps, bad := r.bad }

/-- LDK (R148). -/
def workLdk (t : Tile) (o : Order) : OrdDone :=
  match t.readSpan (ldAddr o) 512 with
  | (t, some f) => { tile := t, bad := some f }
  | (t, none) =>
    let blk := t.readMem (ldAddr o) 512
    { tile := { t with vk := Vector.ofFn (fun i : Fin 16 =>
        if bit (ldMask o) i.val then BitVec.ofNat 64 (fieldLE blk (8 * i.val) 8) else t.vk[i]) } }

/-- VXE NOP (R135). -/
def execVxeNop (t : Nat) (s : State) : Out := orderRow t 1 0x00 [] (fun t _ => { tile := t }) s
/-- VXE LDTD (R138). -/
def execVxeLdtd (t : Nat) (ups : List (Nat × Bool)) (s : State) : Out := orderRow t 1 0x01 ups (workLdtd 1) s
/-- LDK (R148). -/
def execLdk (t : Nat) (ups : List (Nat × Bool)) (s : State) : Out := orderRow t 1 0x02 ups workLdk s
/-- VXE STAT (R157). -/
def execVxeStat (t : Nat) (s : State) : Out := orderRow t 1 0x06 [] (workStat 1) s
/-- VEW (R149). -/
def execVew (t : Nat) (ups : List (Nat × Bool)) (s : State) : Out := orderRow t 1 opVEW ups workArith s
/-- VTR (R150). -/
def execVtr (t : Nat) (ups : List (Nat × Bool)) (s : State) : Out := orderRow t 1 opVTR ups workArith s
/-- VRED (R151). -/
def execVred (t : Nat) (ups : List (Nat × Bool)) (s : State) : Out := orderRow t 1 opVRED ups workArith s
/-- VSAMPLE (R286). -/
def execVsample (t : Nat) (ups : List (Nat × Bool)) (s : State) : Out := orderRow t 1 opVSAMPLE ups workArith s
/-- VRAND (R285). -/
def execVrand (t : Nat) (ups : List (Nat × Bool)) (s : State) : Out := orderRow t 1 opVRAND ups workArith s

end Sys2Proof.Machine
end

