-- ==== Sys2Proof/Machine/Xe.lean ====
section
/-! DEFINITION. The exchange engine: its checks (R179), sends (R175, R176), RECV (R177) and PULL (R178). -/

namespace Sys2Proof.Machine

/-! ### Operands -/

def xSRC (o : Order) : Nat := 512 * ordField o 64 13
/-- DST of a send, as the header carries it (address [21:6]). -/
def xDST (o : Order) : Nat := ordField o 77 16
def xCH (o : Order) : Nat := ordField o 93 12
def xACNT (o : Order) : Nat := ordField o 105 8
def xNFLIT (o : Order) : Nat := ordField o 113 14
def rACNT (o : Order) : Nat := ordField o 64 8
def rTARGET (o : Order) : Nat := ordField o 72 32
def pMOFF (o : Order) : Nat := ordField o 64 13
def pNFLIT (o : Order) : Nat := ordField o 93 14
def pACNT (o : Order) : Nat := ordField o 107 8

/-! ### Route entries (R188) -/

def rteValid (e : BitVec 128) : Bool := bit e.toNat 0
def rteKind (e : BitVec 128) : Nat := bits e.toNat 1 2
def rteMode (e : BitVec 128) : Bool := bit e.toNat 3
def rteLane (e : BitVec 128) : Nat := bits e.toNat 4 3
def rteSsq (e : BitVec 128) : Bool := bit e.toNat 7
def rteCh (e : BitVec 128) : Nat := bits e.toNat 8 12
/-- IN, bit per port in the order local, north, east, south, west. -/
def rteIn (e : BitVec 128) : Nat := bits e.toNat 20 5
/-- OUT, bit per output: 0 local commit, 1 north, 2 east, 3 south, 4 west, 5 wharf. -/
def rteOut (e : BitVec 128) : Nat := bits e.toNat 25 6
def rteESq (e : BitVec 128) : Int := sext (bits e.toNat 32 16) 16
def rteSsqCount (e : BitVec 128) : Nat := bits e.toNat 48 16
def rteSsqDst (e : BitVec 128) : Nat := bits e.toNat 64 16
def rteSsqAcnt (e : BitVec 128) : Nat := bits e.toNat 80 8
def rteEData (e : BitVec 128) : Int := sext (bits e.toNat 88 16) 16

/-- The valid entry of a channel. -/
def Router.route (r : Router) (ch : Nat) : Option (BitVec 128) :=
  (r.routes.find? (fun p => rteValid p.2 && rteCh p.2 == ch)).map Prod.snd

/-! ### Checks (R179) -/

/-- The route kind that a send's opcode requires (R175). -/
def sendKind (op : Nat) : Nat := if op = 0x10 then 0 else if op = 0x11 then 1 else 2

/-- The checks of SEND, MSEND and COMB, in the order of precedence. -/
def checkSend (r : Router) (o : Order) : Option OrdFault :=
  let n := xNFLIT o
  let rt := r.route (xCH o)
  firstFault [
    (bit o.toNat 127, ofInvalid),
    (n = 0, ofBadCount),
    (decide (2 ^ 22 < xSRC o + 64 * n), { cause := cRange, addr := xSRC o }),
    (decide (2 ^ 22 < 64 * xDST o + 64 * n), { cause := cRange, addr := 64 * xDST o }),
    (rt.isNone, { cause := cOrderFault, detail := 0x0020 }),
    ((rt.map rteKind).getD 3 != sendKind (ordOpcode o), { cause := cOrderFault, detail := 0x0021 })]

/-- The checks of PULL. -/
def checkPull (o : Order) : Option OrdFault :=
  let n := pNFLIT o
  firstFault [
    (ordField o 115 13 ≠ 0, ofInvalid),
    (n = 0 || decide (8192 < n), ofBadCount),
    (decide (2 ^ 22 < 64 * xDST o + 64 * n), { cause := cRange, addr := 64 * xDST o })]

/-- The XE's operand checks. -/
def checkXe (r : Router) (o : Order) : Option OrdFault :=
  match ordOpcode o with
  | 0x10 => checkSend r o
  | 0x11 => checkSend r o
  | 0x12 => checkSend r o
  | 0x13 => firstFault [(ordField o 104 24 ≠ 0, ofInvalid)]
  | 0x14 => checkPull o
  | _ => checkNop o

/-! ### Sends (R175, R176) -/

/-- A send order starts: nothing of it has left the tile. -/
def sendRow (t op : Nat) (s : State) : Out :=
  if numTiles ≤ t then .fault .noSuchUnit
  else
    let tl := s.tile t
    match tl.xe.exec with
    | some o =>
      if s.enginesRun t && ordOpcode o == op && tl.sending.isNone then
        .next (s.setTile t { tl with sending := some { sent := 0, block := 0 } })
      else .next s
    | none => .next s

/-- SEND: sends its flits on a unicast channel; each flit enters the router by FLIT_INJECT (R175, R176). -/
def execSend (t : Nat) (s : State) : Out := sendRow t 0x10 s
/-- MSEND: as SEND on a multicast channel. -/
def execMsend (t : Nat) (s : State) : Out := sendRow t 0x11 s
/-- COMB: as SEND, each flit a contribution on a combining channel. -/
def execComb (t : Nat) (s : State) : Out := sendRow t 0x12 s

/-- Credits of the local input per lane (R193). -/
def localCredits : Nat := 8

/-- A flit at the end of an input lane. -/
def Router.push (r : Router) (port lane : Nat) (f : Flit) : Router :=
  let k := 8 * port + lane
  { r with inq := r.inq.set k (Tbl.get [] r.inq k ++ [f]) }

/-- Flit `i` of a send order (R175), from the source block last read. -/
def sendFlit (o : Order) (lane i : Nat) (blk : BitVec 4096) : Flit :=
  { ch := xCH o, dst := (xDST o + i) % 2 ^ 16, acnt := xACNT o, lane := lane
    payload := BitVec.ofNat 512 (fieldLE blk.toNat (64 * (i % 8)) 64) }

/-! ### RECV and PULL (R177, R178) -/

/-- XE NOP: its wait and its signal alone (R174). -/
def execXeNop (t : Nat) (s : State) : Out := orderRow t 2 0x00 [] (fun t _ => { tile := t }) s

/-- RECV: the counter is tested; where it has not reached the target the XE waits (R177). -/
def execRecv (t : Nat) (s : State) : Out :=
  if numTiles ≤ t then .fault .noSuchUnit
  else
    let tl := s.tile t
    match tl.xe.exec with
    | some o =>
      if s.enginesRun t && ordOpcode o == 0x13 && !tl.recvWait then
        if tl.acntReached (rACNT o) (rTARGET o) then .next (s.orderDone t 2 o { tile := tl })
        else .next (s.setTile t { tl with recvWait := true })
      else .next s
    | none => .next s

/-- RECV_COMPLETE: the waiting RECV finds its counter at the target (R177). -/
def execRecvComplete (t : Nat) (s : State) : Out :=
  if numTiles ≤ t then .fault .noSuchUnit
  else
    let tl := s.tile t
    match tl.xe.exec with
    | some o =>
      if s.enginesRun t && ordOpcode o == 0x13 && tl.recvWait && tl.acntReached (rACNT o) (rTARGET o) then
        .next (s.orderDone t 2 o { tile := { tl with recvWait := false } })
      else .next s
    | none => .next s

/-- Requests that a wharf holds for the tile of a local index: outstanding until their last flit is committed (R178). -/
def Wharf.outstanding (w : Wharf) (i : Nat) : Nat := (w.pulls.filter (fun p => p.tile == i)).length

/-- PULL: posts its request to the granule's wharf, holding the XE while four of the tile are outstanding (R178). -/
def execPull (t : Nat) (s : State) : Out :=
  if numTiles ≤ t then .fault .noSuchUnit
  else
    let tl := s.tile t
    match tl.xe.exec with
    | some o =>
      let w := s.wharf (granOf t)
      if s.enginesRun t && ordOpcode o == 0x14 && decide (w.outstanding (localIdx t) < 4) then
        let p : WharfPull := { tile := localIdx t, moff := pMOFF o, dst := xDST o, nflit := pNFLIT o, acnt := pACNT o }
        .next ((s.setWharf (granOf t) { w with pulls := w.pulls ++ [p] }).orderDone t 2 o { tile := tl })
      else .next s
    | none => .next s

end Sys2Proof.Machine
end

