-- ==== Sys2Proof/Machine/Begin.lean ====
section
/-! DEFINITION. The beginning of an order: its operand checks (R75, R108, R137, R179). -/

namespace Sys2Proof.Machine

/-- The operand checks of engine `e`, whose descriptors already take the scales of delayed scaling. -/
def operandCheck (e : Nat) (t : Tile) (r : Router) (o : Order) : Option OrdFault :=
  match e with
  | 0 => checkMxe t o
  | 1 => checkVxe t o
  | _ => checkXe r o

/-- Do two runs of rows of an accumulator set meet? -/
def rowsMeet (acc r0 m acc' r0' m' : Nat) : Bool := acc == acc' && decide (r0 < r0' + m') && decide (r0' < r0 + m)

/-- Must MXE order `o` wait for the signal of MMA `a`, which is in its tail: an LDB into its buffer, a DRAIN or LDACC that touches its
rows, or an MMA with CLR on them (R146)? -/
def interlocks (a o : Order) : Bool :=
  let touches (acc r0 m : Nat) : Bool := rowsMeet (mmaAcc a) (mmaR0 a) (mmaM a) acc r0 m
  ordOpcode a == 0x03 && (match ordOpcode o with
    | 0x02 => mmaBuf o == mmaBuf a
    | 0x03 => opFlag0 o && touches (mmaAcc o) (mmaR0 o) (mmaM o)
    | 0x04 => touches (drAcc o) (drR0 o) (drM o)
    | 0x05 => touches (drAcc o) (drR0 o) (drM o)
    | _ => false)

/-- Does the MXE hold back an order until the tail of an earlier MMA has ended, which its signal marks (R145, R146)? -/
def Tile.interlocked (t : Tile) (e : Nat) (o : Order) : Bool := e == 0 && (t.engine 0).owed.any (fun a => interlocks a o)

/-- ORDER_BEGIN: the pending order of an engine that has none under way begins, and makes its operand checks before any
access, unless the tail of an MMA holds it back (R146); a failed check, or a parity error of the engine's state (`parity`), faults the tile (R74, R75, R430).
[DEDUCED: log 22] -/
def execOrderBegin (t e : Nat) (parity : Bool) (s : State) : Out :=
  if numTiles ≤ t ∨ 3 ≤ e then .fault .noSuchUnit
  else
    let tl := s.tile t
    let en := tl.engine e
    match en.pending, en.exec with
    | some o, none =>
      if s.enginesRun t && !tl.interlocked e o then
        if parity then .next (s.orderFault t e { cause := cIntegrity, detail := 0x00FF } true)
        else
          let en := { en with pending := none, exec := some o, scales := tl.dsScales }
          let tl := tl.setEngine e en
          match operandCheck e tl (s.router t) o with
          | some f => .next (s.orderFault t e f false)
          | none => .next (s.setTile t tl)
      else .next s
    | _, _ => .next s

end Sys2Proof.Machine
end

