-- ==== Sys2Proof/Machine/Detour.lean ====
section
/-! DEFINITION. Detour paths and link faults (16_faults.md R431, R432; 01_wafer.md R26; 07_on_wafer_exchange.md R187): the
sides of granules, which path carries a side, and what a fault of a link, a router port or a bond does. -/

namespace Sys2Proof.Machine

/-- The port at the other end of a mesh link. -/
def opposite (o : Nat) : Nat :=
  match o with
  | 1 => 3
  | 2 => 4
  | 3 => 1
  | 4 => 2
  | _ => 0

/-- The granule beyond a side of a granule in a grid of `rows` rows: 0 north, 1 east, 2 south, 3 west. -/
def besideGran (rows v side : Nat) : Option Nat :=
  match side with
  | 0 => if v / 32 = 0 then none else some (v - 32)
  | 1 => if v % 32 = 31 then none else some (v + 1)
  | 2 => if rows ≤ v / 32 + 1 then none else some (v + 32)
  | 3 => if v % 32 = 0 then none else some (v - 1)
  | _ => none

/-- Granule rows of the wafer; the last of them are spare (R5, R7). -/
def physRows : Nat := 18

/-- A side as the detour tables name it: the west or north granule of the pair and its east or south side. -/
def chargedSide (rows v side : Nat) : Nat × Nat :=
  match side, besideGran rows v side with
  | 0, some n => (n, 2)
  | 3, some n => (n, 1)
  | _, _ => (v, side)

/-- Does a detour path carry a side of a virtual granule? A substituted granule's four paths are kept by its own sides, any
other path by the side it is charged to (R26, R431). -/
def State.sideMoved (s : State) (v side : Nat) : Bool :=
  s.detours.any (fun p => (p.2.granule == v && p.2.side == side) ||
    (match besideGran physRows v side with
     | some n => p.2.granule == n && p.2.side + 1 == opposite (side + 1)
     | none => false))

/-- Tiles of a physical granule along one side. -/
def sideTiles (g side : Nat) : List Nat :=
  (List.range 4).map (fun i => tileAt g (match side with
    | 0 => i
    | 1 => 4 * i + 3
    | 2 => 12 + i
    | _ => 4 * i))

/-- The granule of the virtual grid beyond a side. The link from the last usable row to the spare rows joins no two granules
of the grid: no flit crosses it (R7, R20). -/
def State.sideOther (s : State) (v side : Nat) : Option Nat := besideGran s.spareRow v side

/-- Do the lane buffers of a side hold no flit (R432 step 1)? -/
def State.sideEmpty (s : State) (v side : Nat) : Bool :=
  let empty (g o : Nat) : Bool := (sideTiles g (o - 1)).all (fun t =>
    (s.router t).inq.all (fun e => e.1 / 8 != o || e.2.isEmpty))
  empty (s.physGran v) (side + 1) &&
    (match s.sideOther v side with
     | some n => empty (s.physGran n) (opposite (side + 1))
     | none => true)

/-- The contexts whose region holds a router of a side. -/
def State.sideCtxs (s : State) (v side : Nat) : List Nat :=
  (s.ctxsIn (s.physGran v) ++ (match s.sideOther v side with
    | some n => s.ctxsIn (s.physGran n)
    | none => [])).eraseDups

/-- A fault of a link, a router port or a bond on one side of physical granule `g` moves that side, all four links, onto the
lowest-numbered free path; `lost` says that it dropped or poisoned a flit (R26, R431). A side that a path carries already, and an
edge of the wafer, have no mesh link. Where no path is free, or a ninth granule would be detoured, the fault is a fault of the
granule. [DESIGN CHOICE: log 165] -/
def State.linkFault (s : State) (g side : Nat) (lost : Bool) : State :=
  let v := s.virtGran g
  let (cv, cs) := chargedSide physRows v side
  if (besideGran physRows v side).isNone || s.sideMoved v side then s
  else
    let count := (s.virtGran cv :: s.detoured).eraseDups.length
    match s.freePaths.head? with
    | some path =>
      if count ≤ 8 then
        let ctxs := s.sideCtxs cv cs
        let s := { s with detours := s.detours.set path { granule := cv, side := cs, draining := true, lost := lost, detected := s.now } }
        let s := s.postPF 0x40 2 (body [(24, 1, 2), (26, 2, g), (28, 2, path), (36, 2, (ctxs.map (· / 4)).eraseDups.length),
          (38, 1, s.detoured.length)])
        s.holdDomains ctxs (fun c => { class_ := 2, granule := none, vgranule := (cv % 32, cv / 32), detected := s.now
                                       lastFired := (s.ctx c).index, lost := lost })
      else s.granuleFault g
    | none => s.granuleFault g

/-- Does mesh port `o` of a tile lead out of its granule? -/
def leavesGran (t o : Nat) : Bool :=
  match o with
  | 1 => tileY t % 4 == 0
  | 2 => tileX t % 4 == 3
  | 3 => tileY t % 4 == 3
  | 4 => tileX t % 4 == 0
  | _ => false

/-- The link that feeds an input of a tile's router is at fault: on a boundary between granules the side moves to a path;
a link between two tiles of one granule, or from the tile into its router, is a fault of the granule (R26, R187, R431). -/
def State.inputFault (s : State) (t port : Nat) (lost : Bool) : State :=
  if leavesGran t port then s.linkFault (granOf t) (port - 1) lost else s.granuleFault (granOf t)

end Sys2Proof.Machine
end

