-- ==== Sys2Proof/Machine/Router.lean ====
section
/-! DEFINITION. Tile routers (07_on_wafer_exchange.md): neighbours and fences, drops, arbitration, credits, combining,
the fused sum of squares and delivery at the local output. Ports: 0 local, 1 north, 2 east, 3 south, 4 west. -/

namespace Sys2Proof.Machine

/-! ### Neighbours (R188, R195, R203) -/

/-- The virtual tile coordinates that a physical tile serves. -/
def State.virtXY (s : State) (t : Nat) : Nat × Nat :=
  let v := s.virtGran (granOf t)
  (4 * (v % 32) + t % 4, 4 * (v / 32) + tileY t % 4)

/-- The physical tile that serves a virtual tile. -/
def State.physTile (s : State) (x y : Nat) : Nat := tileAt (s.physGran (32 * (y / 4) + x / 4)) (4 * (y % 4) + x % 4)

/-- The virtual neighbour through a mesh port, none at the grid edge. -/
def stepXY (p : Nat × Nat) (o : Nat) : Option (Nat × Nat) :=
  match o with
  | 1 => if p.2 = 0 then none else some (p.1, p.2 - 1)
  | 2 => if p.1 = 127 then none else some (p.1 + 1, p.2)
  | 3 => if p.2 = 71 then none else some (p.1, p.2 + 1)
  | 4 => if p.1 = 0 then none else some (p.1 - 1, p.2)
  | _ => none

/-- The physical tile reached through mesh port `o`. The link from the last usable row to a spare row joins no two tiles of the
virtual grid: the spare below, whatever granule it stands in for, is no neighbour there (R20, R25, R203). -/
def State.neighbour (s : State) (t o : Nat) : Option Nat :=
  match stepXY (s.virtXY t) o with
  | some p => if p.2 / 4 < s.spareRow then some (s.physTile p.1 p.2) else none
  | none => none

/-- Is the port's open bit set (R203)? -/
def Router.open? (r : Router) (o : Nat) : Bool := o == 0 || r.openMask.getLsbD (o - 1)

/-- Credits per lane of a mesh output (R193). -/
def State.creditLimit (s : State) (t o : Nat) : Nat :=
  match s.neighbour t o with
  | none => 8
  | some u =>
    if granOf t ≠ granOf u ∧ s.sideMoved (s.virtGran (granOf t)) (o - 1) then 192
    else if dieOf t ≠ dieOf u then 24 else 8

/-! ### Drops (R190, R204, R205) -/

def sat16 (x : BitVec 16) (n : Nat) : BitVec 16 := BitVec.ofNat 16 (satAdd 16 x.toNat n)

def dropFence : Nat := 0
def dropMiss : Nat := 1
def dropMismatch : Nat := 2
def dropHeader : Nat := 3

/-- Counts a drop, sets its flag and records it (R204, R205). -/
def Router.drop (r : Router) (ch port lane cause : Nat) : Router :=
  let r := match cause with
    | 0 => { r with fence := sat16 r.fence 1 }
    | 1 => { r with miss := sat16 r.miss 1 }
    | 2 => { r with mismatch := sat16 r.mismatch 1 }
    | _ => { r with hdrUe := sat16 r.hdrUe 1 }
  { r with status := r.status ||| BitVec.ofNat 5 (2 ^ cause)
           lastDrop := BitVec.ofNat 64 (pack [(0, 12, ch), (12, 3, port), (15, 3, lane), (18, 2, cause)]) }

/-- A dropped flit reported to the tenant of the router's region, a fence drop also to the provider (R204, R402). -/
def State.dropEvent (s : State) (t ch cause : Nat) : State :=
  let xy := s.virtXY t
  let ten := (s.tenantOfGran (granOf t)).getD 0xFFFF
  let s := if ten = 0xFFFF then s
    else s.postTenant ten 0x21 1 0xFFFF (body [(24, 1, xy.1), (25, 1, xy.2), (26, 2, ch), (28, 1, cause)])
  if cause = dropFence then
    s.postNum 0 (s.event 0x21 1 ten 0xFFFF (body [(24, 2, t), (26, 2, ch), (28, 1, cause)]))
  else s

/-- A drop at the router of tile `t`: counted, recorded and reported (R204). -/
def State.dropAt (s : State) (t ch port lane cause : Nat) : State :=
  (s.setRouter t ((s.router t).drop ch port lane cause)).dropEvent t ch cause

/-- A credit goes back to the output that feeds input `port` of tile `t` (R193); the local input's credits are its
free places. -/
def State.freeCredit (s : State) (t port lane : Nat) : State :=
  if port = 0 then s
  else
    match s.neighbour t port with
    | none => s
    | some u =>
      let r := s.router u
      let k := 8 * opposite port + lane
      s.setRouter u { r with returning := r.returning.set k (Tbl.get 0 r.returning k + 1) }

/-- Why a flit that reaches input `port` of a router is dropped before it enters the buffer, if it is: closed port,
no entry, wrong input or wrong lane (R190, R203). -/
def Router.arrivalDrop (r : Router) (port : Nat) (f : Flit) : Option Nat :=
  if !r.open? port then some dropFence
  else
    match r.route f.ch with
    | none => some dropMiss
    | some e => if bit (rteIn e) port && rteLane e == f.lane then none else some dropMiss

/-- The times of the corrected headers of the last second on the link into an input. -/
def Router.recentCe (r : Router) (port now : Nat) : List Nat :=
  (Tbl.get [] r.ceTimes port).filter (fun a => decide (now < a + 1000000000))

/-- A header error of a flit at input `port` of tile `t`'s router: 1 one that the router corrects and counts, the sixteenth of
one link within 1 s a link fault; 2 an uncorrectable one, a link fault that has lost its flit (R187, R429). -/
def State.headerError (s : State) (t port hdr : Nat) : State :=
  if hdr = 0 then s
  else if hdr = 1 then
    let r := s.router t
    let times := r.recentCe port s.now ++ [s.now]
    let s := s.setRouter t { r with hdrCe := sat16 r.hdrCe 1, ceTimes := r.ceTimes.set port times }
    if 16 ≤ times.length then s.inputFault t port false else s
  else s.inputFault t port true

/-- The place of a flit in a router's input: dropped where its header is lost, its port closed or its route wrong (R187, R190,
R203), and else at the end of its lane. [DEDUCED: log 29] -/
def State.enterInput (s : State) (t port hdr : Nat) (f : Flit) : State :=
  let cause := if 2 ≤ hdr then some dropHeader else (s.router t).arrivalDrop port f
  match cause with
  | some c => (s.dropAt t f.ch port f.lane c).freeCredit t port f.lane
  | none => s.setRouter t ((s.router t).push port f.lane f)

/-- A flit reaches input `port` of tile `t`'s router: `hdr` 1 a corrected header, 2 an uncorrectable one (R187). -/
def State.arriveFlit (s : State) (t port hdr : Nat) (f : Flit) : State := (s.enterInput t port hdr f).headerError t port hdr

/-- FLIT_INJECT: the next flit of the send under way enters the local input when its lane has a credit. Every eighth
flit is preceded by the read of its source block, which stops the order at a word that fails its check (R176, R91). Where
the channel's entry has gone, no lane holds the flit back and it is dropped as a route miss (R190). `env`: the upsets of the
source block, and the header error that the flit suffers on its way into the router (R187). [DEDUCED: log 33] -/
def execFlitInject (t : Nat) (env : List (Nat × Bool) × Nat) (s : State) : Out :=
  if numTiles ≤ t then .fault .noSuchUnit
  else
    let tl := s.tile t
    match tl.sending, tl.xe.exec with
    | some sd, some o =>
      let r := s.router t
      let lane := ((r.route (xCH o)).map rteLane).getD 0
      if s.enginesRun t && ((r.route (xCH o)).isNone || decide ((Tbl.get [] r.inq lane).length < localCredits)) then
        let i := sd.sent
        let fresh := i % 8 = 0
        let addr := xSRC o + 64 * i
        let (tl, bad) := if fresh then (tl.upsets env.1).readSpan addr 512 else (tl, none)
        match bad with
        | some (a, hw) => .next ((s.setTile t tl).orderFault t 2 { cause := cIntegrity, addr := a } hw)
        | none =>
          let blk := if fresh then BitVec.ofNat 4096 (tl.readMem addr 512) else sd.block
          let s := if i + 1 < xNFLIT o then
              s.setTile t { tl with sending := some { sent := i + 1, block := blk } }
            else
              s.setTile t { tl with sending := none, xe := { tl.xe with exec := none, owed := tl.xe.owed ++ [o] } }
          .next (s.arriveFlit t 0 env.2 (sendFlit o lane i blk))
      else .next s
    | _, _ => .next s

/-! ### Combining (R198 to R200) -/

/-- The input ports of an entry, in the order local, north, east, south, west. -/
def inPorts (e : BitVec 128) : List Nat := (List.range 5).filter (fun p => bit (rteIn e) p)

/-- A combining entry that adds contributions (more than one IN bit). -/
def combines (e : BitVec 128) : Bool := rteKind e == 2 && decide (2 ≤ (inPorts e).length)

/-- The head of an input lane. -/
def Router.head (r : Router) (port lane : Nat) : Option Flit := (Tbl.get [] r.inq (8 * port + lane)).head?

/-- Two payloads added: binary32 values, or window partials (R199, R200). -/
def addPayload (partials : Bool) (a b : Line) : Line :=
  if partials then
    BitVec.ofNat 512 (packElems 128 ((List.range 4).map (fun j =>
      winBits (combineWin (winOfBits (elemOf a.toNat 128 j)) (winOfBits (elemOf b.toNat 128 j))))))
  else
    BitVec.ofNat 512 (packElems 32 ((List.range 16).map (fun j => add32 (elemOf a.toNat 32 j) (elemOf b.toNat 32 j))))

/-- The combined flit of contributions in input order: the common header, the sum, and every word poisoned that any
contribution has poisoned (R187, R199, R200). [DEDUCED: log 32] -/
def combineFlits (partials : Bool) : List Flit → Option Flit
  | [] => none
  | f :: r => some (r.foldl (fun a g => { a with payload := addPayload partials a.payload g.payload, bad := a.bad ||| g.bad }) f)

/-- The bits set in a byte. -/
def popcount8 (x : BitVec 8) : Nat := ((List.range 8).filter (fun i => x.getLsbD i)).length

/-- Payload checks at a combining node or the arrival path: corrected and uncorrectable words (R187). -/
def Router.payChecks (r : Router) (ce ue : Nat) : Router :=
  { r with payCe := sat16 r.payCe ce, payUe := sat16 r.payUe ue, status := if 0 < ue then r.status ||| 16#5 else r.status }

/-- The flits that leave input lanes with their credits. -/
def State.popLane (s : State) (t port lane : Nat) : State :=
  let r := s.router t
  let k := 8 * port + lane
  (s.setRouter t { r with inq := r.inq.set k (Tbl.get [] r.inq k).tail, granted := r.granted.del k }).freeCredit t port lane

/-- COMBINE: the contributions of one combination are at the heads of all inputs of channel `ch`: equal DST and ACNT
make the combined flit ready, unequal ones are dropped together: one mismatch counted, an event for each flit (R198, R204).
[DEDUCED: log 31] -/
def execCombine (t ch ce : Nat) (s : State) : Out :=
  if numTiles ≤ t then .fault .noSuchUnit
  else
    let r := s.router t
    match r.route ch with
    | none => .next s
    | some e =>
      let ports := inPorts e
      let heads := ports.filterMap (fun p => r.head p (rteLane e))
      if s.tileClocked t && combines e && heads.length == ports.length && heads.all (fun f => f.ch == ch)
          && (r.ready.find ch).isNone then
        match heads with
        | [] => .next s
        | f :: rest =>
          if rest.all (fun g => g.dst == f.dst && g.acnt == f.acnt) then
            let ue := (heads.map (fun g => popcount8 g.bad)).sum
            let r := r.payChecks ce ue
            match combineFlits (rteMode e) heads with
            | some c => .next (s.setRouter t { r with ready := r.ready.set ch c })
            | none => .next s
          else
            let s := ports.foldl (fun s p => s.popLane t p (rteLane e)) s
            let s := s.dropAt t ch (ports.headD 0) (rteLane e) dropMismatch
            .next (ports.tail.foldl (fun s _ => s.dropEvent t ch dropMismatch) s)
      else .next s

/-! ### The fused sum of squares (R201, R202) -/

/-- The squares of one granted flit added to the accumulator (R201). -/
def ssqAdd (e : BitVec 128) (a : Win) (f : Flit) : Win :=
  let esq := rteESq e
  let square (x : Fv) : Win := toPartial (fvMul x x).1 esq
  if rteMode e then
    (List.range 4).foldl (fun a j =>
      let v := winOfBits (elemOf f.payload.toNat 128 j)
      let (x, _, v) := readPartial binary32 0 false v (rteEData e)
      let p := square (decodeFmt binary32 false x)
      combineWin a { p with low := p.low || v.low, high := p.high || v.high, nonfinite := p.nonfinite || v.nonfinite }) a
  else
    (List.range 16).foldl (fun a j => combineWin a (square (decodeFmt binary32 false (elemOf f.payload.toNat 32 j)))) a

/-- The values squared per flit. -/
def ssqValues (e : BitVec 128) : Nat := if rteMode e then 4 else 16

/-- The sum-of-squares flit of an accumulator (R202). -/
def ssqFlit (e : BitVec 128) (q : Ssq) : Flit :=
  { ch := rteCh e, dst := rteSsqDst e, acnt := rteSsqAcnt e, lane := rteLane e
    payload := BitVec.ofNat 512 (packLE [(0, 16, winBits q.acc), (16, 8, (readPartial binary64 0 false q.acc (rteESq e)).1),
      (24, 4, q.values)]) }

/-- The root's accumulator after a grant of combined flit `f` (R201, R202). -/
def Router.grantSsq (r : Router) (e : BitVec 128) (f : Flit) : Router :=
  if rteKind e == 2 && rteSsq e then
    let ch := rteCh e
    let q := Tbl.get {} r.ssq ch
    let q : Ssq := { acc := ssqAdd e q.acc f, values := q.values + ssqValues e, count := q.count + 1 }
    if rteSsqCount e ≤ q.count then
      { r with ssq := r.ssq.set ch {}, ssqReady := r.ssqReady.set ch (Tbl.get [] r.ssqReady ch ++ [ssqFlit e q]) }
    else { r with ssq := r.ssq.set ch q }
  else r

/-! ### Arbitration (R191) -/

/-- A flit that may be granted: its entry, where it comes from (0 an input head, 1 a combined flit, 2 a sum-of-squares
flit), the input it counts as, and the OUT bit it asks for. -/
structure Cand where
  kind : Nat
  port : Nat
  flit : Flit
  e : BitVec 128
  out : Nat

/-- Rank: lowest lane, then inputs in order; a sum-of-squares flit before the local input's own flit of its lane.
[DEDUCED: log 30] -/
def Cand.rank (c : Cand) : Nat := (c.flit.lane * 5 + c.port) * 2 + (if c.kind = 2 then 0 else 1)

/-- OUT bits that output `o` serves: the local output serves commit and wharf (R194). -/
def outBits (o : Nat) : List Nat := if o = 0 then [0, 5] else [o]

/-- The candidates of a router at output `o`, before credits. -/
def Router.cands (r : Router) (o : Nat) : List Cand :=
  let heads := (List.range 5).flatMap (fun p => (List.range 8).flatMap (fun l =>
    match r.head p l with
    | none => []
    | some f =>
      match r.route f.ch with
      | none => []
      | some e =>
        if combines e then []
        else ((outBits o).filter (fun b => bit (rteOut e) b && !bit (Tbl.get 0 r.granted (8 * p + l)) b)).map
          (fun b => { kind := 0, port := p, flit := f, e := e, out := b : Cand })))
  let comb := r.ready.flatMap (fun q =>
    match r.route q.1 with
    | none => []
    | some e => ((outBits o).filter (fun b => bit (rteOut e) b)).map
        (fun b => { kind := 1, port := (inPorts e).headD 0, flit := q.2, e := e, out := b : Cand }))
  let sums := if o = 0 then r.ssqReady.flatMap (fun q =>
      match q.2, r.route q.1 with
      | f :: _, some e => [{ kind := 2, port := 0, flit := f, e := e, out := 0 : Cand }]
      | _, _ => []) else []
  heads ++ comb ++ sums

/-- May the wharf of a granule take a flit: fewer than 64 commands outstanding and room in the egress queue (R215, R223)? -/
def State.wharfTakes (s : State) (g : Nat) : Bool :=
  let w := s.wharf g
  decide (w.reads.length + w.fences.length < 64) && decide ((Tbl.get [] s.egress g).length + w.backlog.length < 128)

/-- Does a router hold a flit that is granted to the wharf and not taken yet? -/
def Router.wharfHeld (r : Router) : Bool :=
  match r.localOut with
  | some (_, true, _) => true
  | _ => false

/-- Does a router offer the wharf a flit: a wharf-bound candidate at a free local output (R194)? -/
def Router.wharfOffer (r : Router) : Bool := r.localOut.isNone && (r.cands 0).any (fun c => c.out == 5)

/-- The wharf's choice before the routers grant: at most two flits, those still to be taken among them, in ascending local
index; the routers whose candidate it does not take have no credit for it (R194). -/
def State.wharfChooses (s : State) (t : Nat) : Bool :=
  let g := granOf t
  let held := (List.range 16).countP (fun i => (s.router (tileAt g i)).wharfHeld)
  let ahead := (List.range (localIdx t)).countP (fun i => (s.router (tileAt g i)).wharfOffer)
  s.wharfTakes g && decide (held + ahead < 2)

/-- Has the candidate a credit, or may the local output deliver it (R191, R193, R194)? -/
def State.credited (s : State) (t o : Nat) (c : Cand) : Bool :=
  let r := s.router t
  if o = 0 then r.localOut.isNone && (c.out != 5 || s.wharfChooses t)
  else !r.open? o || decide (Tbl.get 0 r.used (8 * o + c.flit.lane) < s.creditLimit t o)

/-- The candidate of lowest rank. -/
def bestCand : List Cand → Option Cand
  | [] => none
  | c :: r =>
    match bestCand r with
    | none => some c
    | some d => if d.rank < c.rank then some d else some c

/-- The granted candidate leaves its place: a sum-of-squares flit its list, a combined flit with its contributions, an
input's flit once its last output is granted (R191, R198). -/
def State.takeCand (s : State) (t : Nat) (c : Cand) : State :=
  let r := s.router t
  match c.kind with
  | 2 => s.setRouter t { r with ssqReady := r.ssqReady.set (rteCh c.e) (Tbl.get [] r.ssqReady (rteCh c.e)).tail }
  | 1 =>
    let s := s.setRouter t ({ r with ready := r.ready.del (rteCh c.e) }.grantSsq c.e c.flit)
    (inPorts c.e).foldl (fun s p => s.popLane t p (rteLane c.e)) s
  | _ =>
    let k := 8 * c.port + c.flit.lane
    let done := Tbl.get 0 r.granted k ||| 2 ^ c.out
    let s := s.setRouter t ({ r with granted := r.granted.set k done }.grantSsq c.e c.flit)
    if done = rteOut c.e then s.popLane t c.port c.flit.lane else s

/-- ROUTER_FORWARD: output `o` grants its best candidate. On a mesh link the flit may suffer a header error (`hdr` 1
corrected, 2 uncorrectable) and uncorrectable payload words (`bad`) on its way (R187, R191 to R194, R203). -/
def execRouterForward (t o hdr : Nat) (bad : BitVec 8) (s : State) : Out :=
  if numTiles ≤ t ∨ 5 ≤ o then .fault .noSuchUnit
  else
    let r := s.router t
    match bestCand ((r.cands o).filter (s.credited t o)) with
    | none => .next s
    | some c =>
      if s.tileClocked t then
        let s := s.takeCand t c
        if o = 0 then .next (s.setRouter t { s.router t with localOut := some (c.flit, c.out == 5, c.port) })
        else if !r.open? o then .next (s.dropAt t c.flit.ch c.port c.flit.lane dropFence)
        else
          match s.neighbour t o with
          | none => .next (s.dropAt t c.flit.ch c.port c.flit.lane dropFence)
          | some u =>
            let r := s.router t
            let k := 8 * o + c.flit.lane
            let s := s.setRouter t { r with used := r.used.set k (Tbl.get 0 r.used k + 1) }
            .next (s.arriveFlit u (opposite o) hdr { c.flit with bad := c.flit.bad ||| bad })
      else .next s

/-- CREDIT_RETURN: a credit freed downstream becomes usable at output `o` (R193). -/
def execCreditReturn (t o lane : Nat) (s : State) : Out :=
  if numTiles ≤ t ∨ 5 ≤ o ∨ 8 ≤ lane then .fault .noSuchUnit
  else
    let r := s.router t
    let k := 8 * o + lane
    if 0 < Tbl.get 0 r.returning k then
      .next (s.setRouter t { r with returning := Tbl.put 0 r.returning k (Tbl.get 0 r.returning k - 1)
                                    used := Tbl.put 0 r.used k (Tbl.get 0 r.used k - 1) })
    else .next s

/-! ### The arrival path (R82, R187, R194) -/

/-- A 64-byte unit is committed to tile memory and counted; its bad words enter poisoned (R82, R93, R187). -/
def Tile.commit (t : Tile) (dst acnt : Nat) (payload : Line) (bad : BitVec 8) : Tile :=
  let t := t.writeWhole (64 * dst) 64 payload.toNat
  let t := ((List.range 8).filter (fun i => bad.getLsbD i)).foldl (fun t i => t.poisonWord (8 * dst + i)) t
  t.countFlit acnt

/-- FLIT_COMMIT: the flit granted for local commit is written to tile memory and counted; `ce` of its words needed a
correction (R82, R187). -/
def execFlitCommit (t ce : Nat) (s : State) : Out :=
  if numTiles ≤ t then .fault .noSuchUnit
  else
    let r := s.router t
    match r.localOut with
    | some (f, false, _) =>
      if s.tileClocked t then
        let s := s.setRouter t ({ r with localOut := none }.payChecks ce (popcount8 f.bad))
        .next (s.modTile t (fun tl => tl.commit f.dst f.acnt f.payload f.bad))
      else .next s
    | _ => .next s

end Sys2Proof.Machine
end

