-- ==== Sys2Proof/Machine/Groups.lean ====
section
/-! DEFINITION. Power events, compute groups (R452, R453), and the placing and clearing of a region's granules (R97, R203, R365). -/

namespace Sys2Proof.Machine

/-! ### Events and status -/

/-- PWR_STATUS bits. -/
def pwCapExceeded : Nat := 0
def pwThrottle : Nat := 1
def pwTrip : Nat := 2
def pwFlowLow : Nat := 3
def pwFlowLost : Nat := 4
def pwInletHot : Nat := 5
def pwStackHot : Nat := 6
def pwMgmtHang : Nat := 7

def State.modPower (s : State) (f : Power → Power) : State := { s with power := f s.power }
def State.pwFlag (s : State) (i : Nat) : State := s.modPower (fun p => { p with status := p.status ||| BitVec.ofNat 8 (2 ^ i) })

/-- A u16 that holds a signed reading. -/
def s16 (i : Int) : Nat := wrapInt i 16

/-- POWER event (R475). -/
def State.powerEvent (s : State) (sub group : Nat) : State :=
  s.postPF 0x50 sub (body [(24, 1, group), (26, 2, s.power.total.toNat), (28, 2, s.power.effCap)])

/-- COOLANT event (R475). -/
def State.coolantEvent (s : State) (sub : Nat) (c : Coolant) : State :=
  s.postPF 0x52 sub (body [(24, 2, s16 c.inlet), (26, 2, s16 (min c.flowA c.flowB))])

/-- The lower flow reading. -/
def Coolant.flow (c : Coolant) : Int := min c.flowA c.flowB

/-! ### Compute groups (R452, R453) -/

def numGroups : Nat := 12
/-- Dies of a compute group. -/
def groupDies (g : Nat) : List Nat := (List.range 48).filter (fun d => groupOfDie d == g)
/-- Physical granules of a die. -/
def dieGrans (d : Nat) : List Nat := (List.range numGranules).filter (fun g => dieOfGran g == d)
def groupGrans (g : Nat) : List Nat := (groupDies g).flatMap dieGrans
/-- Physical tiles of a granule. -/
def granTiles (g : Nat) : List Nat := (List.range 16).map (tileAt g)

def State.groupOnNow (s : State) (g : Nat) : Bool := s.power.pdOn.getLsbD (2 + g)

/-- The tenants that own granules in a list, and those granules' tenants on one die. -/
def State.owners (s : State) (gs : List Nat) : List Nat := (gs.filterMap s.tenantOfGran).eraseDups

/-- Is some region allocated on the device? -/
def State.anyRegion (s : State) : Bool := s.granules.any (fun p => match p.2 with
  | .owned _ => true
  | _ => false)

/-- Does a condition of R452 hold for the group? During self-test and clearing at start every group is wanted. -/
def State.groupWanted (s : State) (g : Nat) : Bool :=
  s.boot.phase == .starting ||
  (groupGrans g).any (fun x => match s.gran x with
    | .owned _ => true
    | .dirty => true
    | _ => false) || (decide (8 ≤ g) && s.anyRegion)

/-! ### Regions (R203, R356) -/

/-- RTR_OPEN of a tile's router: a port is open where the neighbour it reaches belongs to the same region (R203). -/
def State.openMaskOf (s : State) (t : Nat) : BitVec 4 :=
  match s.tenantOfGran (granOf t) with
  | none => 0
  | some n => BitVec.ofNat 4 (pack ([1, 2, 3, 4].map (fun o => (o - 1, 1, match s.neighbour t o with
      | some u => b2n (s.tenantOfGran (granOf u) == some n)
      | none => 0))))

/-- The tiles of a region's granules have their places and their routers' fences: the Lockkeeper writes the open masks when it
sets up, changes or releases a region (R97, R203). -/
def State.placeRegion (s : State) (n : Nat) : State :=
  let vs := (s.tenant n).grans
  let s := vs.foldl (fun s v => (List.range 16).foldl (fun s i => s.modTile (tileAt (s.physGran v) i) (fun t =>
    { t with vx := 4 * (v % 32) + i % 4, vy := 4 * (v / 32) + i / 4 })) s) s
  vs.foldl (fun s v => (granTiles (s.physGran v)).foldl (fun s t =>
    s.setRouter t { s.router t with openMask := s.openMaskOf t }) s) s

/-- Tiles, routers and monitor units of physical granules are in their reset state. -/
def State.wipeGrans (s : State) (gs : List Nat) : State :=
  { s with tiles := s.tiles.filter (fun p => !gs.contains (granOf p.1)), routers := s.routers.filter (fun p => !gs.contains (granOf p.1))
           mons := s.mons.filter (fun p => !gs.contains (p.1 / 16)) }

/-! ### Switching groups (R452, R453) -/

/-- COMPUTE_GROUP_ON: the group's domain is on, its tiles and routers are cleared and its dies run at STEP 34 (R452). -/
def State.groupOn (s : State) (g : Nat) : State :=
  let s := s.modPower (fun p => { p with pdOn := p.pdOn ||| BitVec.ofNat 20 (2 ^ (2 + g)), idleSince := p.idleSince.del g })
  let s := s.wipeGrans (groupGrans g)
  let s := (groupDies g).foldl (fun s d => s.setDie d { state := .running }) s
  let s := (s.owners (groupGrans g)).foldl (fun s n => s.placeRegion n) s
  s.powerEvent 2 g

/-- The group's domain is switched off and its contents are lost. -/
def State.groupOff (s : State) (g : Nat) : State :=
  let s := s.modPower (fun p => { p with pdOn := p.pdOn &&& BitVec.ofNat 20 (2 ^ 20 - 1 - 2 ^ (2 + g)), idleSince := p.idleSince.del g })
  let s := s.wipeGrans (groupGrans g)
  (groupDies g).foldl (fun s d => s.setDie d { s.die d with state := .off }) s

/-- Contexts with a member tile in the group. -/
def State.groupCtxs (s : State) (g : Nat) : List Nat :=
  ((s.tiles.filter (fun p => groupOfDie (dieOf p.1) == g)).filterMap (fun p => p.2.home)).eraseDups

/-- A group is lost to heat or to coolant: its domains end with ABORTED (R453). -/
def State.groupLost (s : State) (g : Nat) : State :=
  if s.groupOnNow g then ((s.groupCtxs g).foldl (fun s c => s.enterAborted c) s).groupOff g else s

/-- Every group that R452 wants and that nothing keeps off is switched on; groups no longer wanted begin their 10 ms. -/
def State.groupsOn (s : State) : State :=
  (List.range numGroups).foldl (fun (s : State) g =>
    if s.groupWanted g then
      if s.power.flowOk && !s.power.shutOff && !s.groupOnNow g && (s.power.tripped.find g).isNone then s.groupOn g
      else s.modPower (fun p => { p with idleSince := p.idleSince.del g })
    else if s.groupOnNow g && (s.power.idleSince.find g).isNone then
      s.modPower (fun p => { p with idleSince := p.idleSince.set g s.now })
    else s) s

/-! ### Windows and regions that change hands (R233, R356, R365) -/

/-- Lines [lo, hi) are written as zeros, with stamps of zero, under the keys of the tenant they are handed to (R233). -/
def State.zeroFill (s : State) (lo hi : Nat) : State :=
  { s with hold := s.hold.zero (64 * lo) (64 * (hi - lo))
           holdMeta := s.holdMeta.filter (fun p => !(decide (lo ≤ p.1) && decide (p.1 < hi))) }

/-- Tiles, routers, wharves, mooring buffers and streams of physical granules are in their reset state (R365 step 4). -/
def State.clearGrans (s : State) (gs : List Nat) : State :=
  let s := s.wipeGrans gs
  { s with wharves := s.wharves.filter (fun p => !gs.contains p.1), egress := s.egress.filter (fun p => !gs.contains p.1)
           streams := s.streams.filter (fun p => !gs.contains (p.1 / 64)) }

/-- Granules that leave a region are DIRTY while they are scrubbed: tiles, routers, wharves, mooring buffers and streams are in
their reset state, and the granules are CLEAN (R356, R365 steps 4 and 6). -/
def State.scrubGrans (s : State) (n : Nat) (gs : List Nat) : State :=
  let s := gs.foldl (fun (s : State) g => if s.gran g = .owned n then { s with granules := s.granules.set g .dirty } else s) s
  let s := s.clearGrans gs
  gs.foldl (fun (s : State) g => if s.gran g = .dirty then { s with granules := s.granules.del g } else s) s

end Sys2Proof.Machine
end

