-- ==== Sys2Proof/Machine/Wharf.lean ====
section
/-! DEFINITION. Wharves (08_canal_and_hold.md): streams, commands, fences, landing with expansion, acknowledgements and
pulls. -/

namespace Sys2Proof.Machine

/-! ### Stream entries (R214) -/

def wstValid (e : BitVec 256) : Bool := bit e.toNat 0
/-- KIND: 0 HOLD_READ, 1 HOLD_WRITE, 2 PORT_OUT, 3 PORT_IN. -/
def wstKind (e : BitVec 256) : Nat := bits e.toNat 1 2
def wstBasin (e : BitVec 256) : Bool := bit e.toNat 3
def wstAcc (e : BitVec 256) : Bool := bit e.toNat 4
def wstCh (e : BitVec 256) : Nat := bits e.toNat 5 12
def wstCch (e : BitVec 256) : Nat := bits e.toNat 17 12
def wstLbase (e : BitVec 256) : Nat := bits e.toNat 29 35
def wstLsize (e : BitVec 256) : Nat := bits e.toNat 64 25
def wstXmode (e : BitVec 256) : Nat := bits e.toNat 89 3
def wstXblk (e : BitVec 256) : Nat := bits e.toNat 92 2
def wstXsigned (e : BitVec 256) : Bool := bit e.toNat 94
def wstXint8 (e : BitVec 256) : Bool := bit e.toNat 95
def wstXsat (e : BitVec 256) : Bool := bit e.toNat 96
def wstRbase (e : BitVec 256) : Nat := bits e.toNat 97 35
def wstPep (e : BitVec 256) : Nat := bits e.toNat 132 10
def wstPortcfg (e : BitVec 256) : Nat := bits e.toNat 142 50

def Wharf.wst (w : Wharf) (i : Nat) : BitVec 256 := Tbl.get 0#256 w.streams i

/-- Do the commands of a control channel belong to the entry (kinds HOLD_READ and HOLD_WRITE)? -/
def wstControls (e : BitVec 256) (ch : Nat) : Bool := wstValid e && decide (wstKind e ≤ 1) && wstCch e == ch
/-- Does the entry carry the data of a channel (kinds HOLD_WRITE and PORT_OUT)? -/
def wstCarries (e : BitVec 256) (ch : Nat) : Bool :=
  wstValid e && (wstKind e == 1 || wstKind e == 2) && wstCh e == ch

/-- The stream whose control channel is `ch`. -/
def Wharf.controlOf (w : Wharf) (ch : Nat) : Option Nat := (w.streams.find? (fun p => wstControls p.2 ch)).map Prod.fst
/-- The stream whose data channel is `ch`. -/
def Wharf.dataOf (w : Wharf) (ch : Nat) : Option Nat := (w.streams.find? (fun p => wstCarries p.2 ch)).map Prod.fst

/-! ### Status and events (R217, R218) -/

def whWindow : Nat := 0
def whInvalid : Nat := 1
def whWriteFailed : Nat := 2
def whPoison : Nat := 3
def whHdrDrop : Nat := 4
def whExpand : Nat := 5

/-- Sets a flag of WHF_STATUS and records the event in WHF_ERR (R217). -/
def Wharf.note (w : Wharf) (stream cause loff : Nat) : Wharf :=
  { w with status := w.status ||| BitVec.ofNat 6 (2 ^ cause)
           err := BitVec.ofNat 64 (pack [(0, 6, stream), (6, 3, cause), (9, 24, loff)]) }

/-- A refusal or failed acknowledgement: flag, record and exchange event (R217, R237). [DEDUCED: log 34] -/
def State.wharfRefuse (s : State) (g stream cause loff : Nat) : State :=
  let s := s.modWharf g (fun w => w.note stream cause loff)
  match s.tenantOfGran g with
  | some n =>
    let v := s.virtGran g
    s.postTenant n 0x21 2 0xFFFF (body [(24, 1, v % 32), (25, 1, v / 32), (26, 1, stream), (27, 1, cause), (28, 4, loff)])
  | none => s

def Wharf.count (w : Wharf) (stream : Nat) (f : StreamCount → StreamCount) : Wharf :=
  { w with counts := w.counts.set stream (f (Tbl.get {} w.counts stream)) }

/-! ### Where lines lie (R225, R241, R252) -/

/-- First view line (R252). -/
def viewBase : Nat := 28 * 2 ^ 30

/-- The data line that a line or its view names. -/
def dataLine (l : Nat) : Nat := if viewBase ≤ l then l - viewBase else l

/-- Where a data line is stored: its quadrant, the position of its data and of its stripe's parity there, the block row of both
and the line within the row (R225). -/
structure Place where
  quadrant : Nat
  k : Nat
  p : Nat
  row : Nat
  line : Nat
  deriving DecidableEq, Repr

def locate (l : Nat) : Place :=
  let b := l / 64
  let m := b / 4
  let d := m % 7
  let p := m / 7 % 8
  { quadrant := b % 4, k := if d < p then d else d + 1, p := p, row := m / 7, line := l % 64 }

/-- The stack that holds the parity of a data line's stripe. -/
def parityStack (l : Nat) : Nat := 8 * (locate l).quadrant + (locate l).p

/-- The data lines of a stripe, in the order of their positions: line `w` of block row `s` in quadrant `q` (R225, R234). -/
def stripeLines (q s w : Nat) : List Nat := (List.range 7).map (fun d => 64 * (4 * (7 * s + d) + q) + w)

def stackOf (l : Nat) : Nat := 8 * (locate l).quadrant + (locate l).k

/-- Is Basin port `b` live? -/
def State.basinLive (s : State) (b : Nat) : Bool := (s.port (48 + b)).state == .up

/-- The Basin port that serves a 4 KiB block, among the live ports in the order B0 to B7 (R241). -/
def State.basinPort (s : State) (line : Nat) : Option Nat :=
  let live := (List.range 8).filter s.basinLive
  if live.isEmpty then none else live[(line / 64) % live.length]?

/-- Canal endpoint of the I/O die that serves Basin port `b` (R523). -/
def basinEndpoint (b : Nat) : Nat := if b < 4 then 615 else 623

/-- Endpoint to which a request for a line goes (R241). -/
def State.lineEndpoint (s : State) (basin : Bool) (line : Nat) : Nat :=
  if basin then basinEndpoint ((s.basinPort line).getD 0) else 576 + stackOf (dataLine line)

/-! ### Egress (R223) -/

/-- Are the replies of a tenant discarded: it is being reset or released (R239)? -/
def State.discards (s : State) (ten : Nat) : Bool :=
  match (s.tenant ten).st with
  | .resetting | .releasing | .free => true
  | _ => false

/-- What a reset of its tenant drops at a wharf: flits not yet turned into requests, waiting requests, writes that no controller
has acknowledged, and every pull (R239). -/
def Wharf.stopped (w : Wharf) : Wharf := { w with inq := [], backlog := [], sects := [], writes := [], pulls := [] }

/-- Is the wharf's tenant being reset or released: its writes are dropped and its pulls cancelled (R239)? -/
def State.wharfStopped (s : State) (g : Nat) : Bool :=
  match s.tenantOfGran g with
  | some n => s.discards n
  | none => false

/-- Moves waiting requests of a wharf into its egress queue of 128 barges. -/
def State.refill (s : State) (g : Nat) : State :=
  let w := s.wharf g
  let q := Tbl.get [] s.egress g
  let n := 128 - q.length
  { s.setWharf g { w with backlog := w.backlog.drop n } with egress := s.egress.set g (q ++ w.backlog.take n) }

/-- Requests enter the egress queue in the order the wharf accepts them. -/
def State.queueBarges (s : State) (g : Nat) (bs : List Barge) : State :=
  (s.modWharf g (fun w => { w with backlog := w.backlog ++ bs })).refill g

/-! ### Taking flits (R194, R214) -/

/-- Command `k` of a control flit (R215). -/
def streamCmd (f : Flit) (k : Nat) : Nat := elemOf f.payload.toNat 128 k

/-- Skips empty commands of the control flit at the head; a flit with none left is finished (R215). -/
def Wharf.skipEmpty (w : Wharf) : Wharf :=
  match w.inq with
  | (i, f, k) :: rest =>
    if (w.controlOf f.ch).isSome then
      match (List.range 4).filter (fun j => decide (k ≤ j) && streamCmd f j ≠ 0) with
      | [] => { w with inq := rest }
      | j :: _ => { w with inq := (i, f, j) :: rest }
    else w
  | [] => w

/-- The command at the head is done. -/
def Wharf.nextCmd (w : Wharf) : Wharf :=
  match w.inq with
  | (i, f, k) :: rest => ({ w with inq := (i, f, k + 1) :: rest }).skipEmpty
  | [] => w

/-- The flit at the head is done. -/
def Wharf.popFlit (w : Wharf) : Wharf := ({ w with inq := w.inq.tail }).skipEmpty

/-- The flit that a tile's router holds for the wharf. -/
def State.wharfFlit (s : State) (t : Nat) : Option (Flit × Nat) :=
  match (s.router t).localOut with
  | some (f, true, p) => some (f, p)
  | _ => none

/-- WHARF_TAKE_FLIT: the wharf takes the flit of the router of lowest local index that has one; a flit of no stream is
a route miss of that router (R194, R214). While the tenant is being reset, what the flit asks for is dropped (R239). -/
def execWharfTakeFlit (g : Nat) (s : State) : Out :=
  if numGranules ≤ g then .fault .noSuchUnit
  else
    match (List.range 16).find? (fun i => (s.wharfFlit (tileAt g i)).isSome) with
    | none => .next s
    | some i =>
      let t := tileAt g i
      match s.wharfFlit t with
      | none => .next s
      | some (f, p) =>
        let s := s.setRouter t { s.router t with localOut := none }
        let w := s.wharf g
        if s.wharfStopped g then .next s
        else if (w.controlOf f.ch).isSome || (w.dataOf f.ch).isSome then
          let w := { w with inq := w.inq ++ [(i, f, 0)] }
          .next (s.setWharf g (if w.inq.length = 1 then w.skipEmpty else w))
        else .next (s.dropAt t f.ch p f.lane dropMiss)

/-! ### Expansion (R130 to R133, R220) -/

/-- Does the stream expand to block-scaled E4M3? -/
def wstToE4m3 (e : BitVec 256) : Bool := wstXmode e == 1 || wstXmode e == 3
/-- Mooring lines per source line (R220). -/
def wstF (e : BitVec 256) : Nat :=
  if wstXmode e = 0 then 1 else if wstToE4m3 e then (if wstXint8 e then 1 else 2) else if wstXint8 e then 2 else 4
/-- Scale bytes per source line (R220). -/
def wstS (e : BitVec 256) : Nat := if wstToE4m3 e then (if wstXint8 e then 2 else 4) else 0
/-- Elements per source line. -/
def wstE (e : BitVec 256) : Nat := if wstXint8 e then 64 else 128
/-- Table mode? -/
def wstTable (e : BitVec 256) : Bool := wstXmode e == 1 || wstXmode e == 2
/-- Elements per record. -/
def wstBlock (e : BitVec 256) : Nat :=
  if wstTable e then [32, 128, 512, 4096].getD (wstXblk e) 32 else [32, 64, 128, 128].getD (wstXblk e) 32
/-- Records per line of RBASE. -/
def wstPerLine (e : BitVec 256) : Nat := if wstTable e then 2 else 16

/-- Lines of records, from RBASE, that source lines `a` to `b − 1` of the stream use. -/
def recLines (e : BitVec 256) (a b : Nat) : List Nat :=
  if wstXmode e = 0 ∨ b ≤ a then []
  else
    let lo := a * wstE e / wstBlock e / wstPerLine e
    let hi := (b * wstE e - 1) / wstBlock e / wstPerLine e
    (List.range (hi + 1 - lo)).map (fun i => lo + i)

/-- One record (R131, R132) from the record lines received. -/
def recordOf (e : BitVec 256) (recs : Tbl (Line × Bool)) (r : Nat) : Nat :=
  let l := (Tbl.get (0#512, false) recs (r / wstPerLine e)).1
  let n := if wstTable e then 32 else 4
  fieldLE l.toNat (n * (r % wstPerLine e)) n

/-- A value of the scale-and-zero-point mode (R132): (k − z) × s; where k = z, the product of +0 and s, negative for a negative s.
[DESIGN CHOICE: log 183] -/
def szpValue (e : BitVec 256) (rec_ code : Nat) : Fv :=
  let w := if wstXint8 e then 8 else 4
  let rd (x : Nat) : Int := if wstXsigned e then sext x w else (x % 2 ^ w : Nat)
  let d : Int := rd code - rd (fieldLE rec_ 2 1)
  (fvMul (.fin (decide (d < 0)) d.natAbs 0) (decodeFmt (ieeeFmt 8 7) false (fieldLE rec_ 0 2))).1

/-- An expanded source line: element codes, scale bytes, and elements that set OF, NV and UF (R218). -/
structure Expanded where
  elems : List Nat
  scales : List Nat
  nof : Nat
  nnv : Nat
  nuf : Nat

/-- Is the value not finite? -/
def Fv.nonfinite : Fv → Bool
  | .fin _ _ _ => false
  | _ => true

/-- One block of 32 values to E4M3 by R115, with each element's flags. -/
def szpBlock (vs : List Fv) : Nat × List (Nat × Nat) :=
  let f := (fmtOf 0x5).getD binary32
  let (x, codes, _) := computedBlock f 0 vs (vs.map (fun _ => 0))
  if vs.any Fv.nonfinite then (x, codes.map (fun c => (c, NV)))
  else (x, vs.map (fun v => convert f 0 true 0 (v.scale (127 - (x : Int)))))

def countFlag (l : List (Nat × Nat)) (i : Nat) : Nat := (l.filter (fun p => bit p.2 i)).length

/-- The expansion of source line `off` of a stream (R131, R132, R220). [DEDUCED: log 36] -/
def expand (e : BitVec 256) (recs : Tbl (Line × Bool)) (off : Nat) (data : Line) : Expanded :=
  let w := if wstXint8 e then 8 else 4
  let n := wstE e
  let code (i : Nat) := elemOf data.toNat w i
  let recAt (i : Nat) := recordOf e recs ((off * n + i) / wstBlock e)
  if wstTable e then
    let size := if wstToE4m3 e then 1 else 2
    { elems := (List.range n).map (fun i => fieldLE (recAt i) (size * code i) size)
      scales := (List.range (wstS e)).map (fun b => fieldLE (recAt (32 * b)) 16 1), nof := 0, nnv := 0, nuf := 0 }
  else if wstToE4m3 e then
    let blocks := (List.range (wstS e)).map (fun b =>
      szpBlock ((List.range 32).map (fun i => szpValue e (recAt (32 * b)) (code (32 * b + i)))))
    let all := blocks.flatMap Prod.snd
    { elems := all.map Prod.fst, scales := blocks.map Prod.fst
      nof := countFlag all 2, nnv := countFlag all 0, nuf := countFlag all 3 }
  else
    let all := (List.range n).map (fun i =>
      let v := szpValue e (recAt i) (code i)
      let (c, fl) := convert (ieeeFmt 8 7) 0 (wstXsat e) 0 v
      (c, if v.nonfinite then fl ||| NV else fl))
    { elems := all.map Prod.fst, scales := [], nof := countFlag all 2, nnv := countFlag all 0, nuf := countFlag all 3 }

/-! ### READ (R215, R217, R220, R221) -/

/-- Mooring lines in all that a READ lands (R220). -/
def landLines (e : BitVec 256) (count : Nat) : Nat := count * wstF e + cdiv (count * wstS e) 64

/-- The mooring lines of a READ, wrapping (R220). -/
def landing (e : BitVec 256) (moff count : Nat) : List Nat := (List.range (landLines e count)).map (fun i => (moff + i) % 8192)

def cmdOp (c : Nat) : Nat := bits c 0 2
def cmdLoff (c : Nat) : Nat := bits c 2 24
def cmdCount (c : Nat) : Nat := bits c 26 14
def cmdMoff (c : Nat) : Nat := bits c 40 13
def cmdTile (c : Nat) : Nat := bits c 53 4

/-- Is the command malformed for the stream (R215, R217)? -/
def cmdInvalid (e : BitVec 256) (c : Nat) : Bool :=
  match cmdOp c with
  | 1 => bits c 53 75 ≠ 0 || wstKind e ≠ 0 || cmdCount c = 0 || decide (8192 < landLines e (cmdCount c))
         || (wstToE4m3 e && cmdCount c % (64 / wstS e) ≠ 0)
  | 2 => bits c 57 71 ≠ 0 || bits c 2 51 ≠ 0
  | _ => true

/-- The stream and the command at the head of the wharf's queue. -/
def Wharf.headCmd (w : Wharf) : Option (Nat × Nat × Flit) :=
  match w.inq with
  | (_, f, k) :: _ => (w.controlOf f.ch).map (fun i => (i, streamCmd f k, f))
  | [] => none

/-- The runs of lines of one 4 KiB block each, as (first, lines). -/
def blockRuns (first : Nat) : Nat → Nat → List (Nat × Nat)
  | _, 0 => []
  | 0, _ => []
  | fuel + 1, n =>
    let k := min n (64 - first % 64)
    (first, k) :: blockRuns (first + k) fuel (n - k)

/-- The request barges of one accepted READ (R215, R220). -/
def State.readBarges (s : State) (g ten stream id : Nat) (e : BitVec 256) (loff count moff : Nat) : List Barge :=
  let mk (line n moff idx : Nat) : Barge :=
    { ty := 1, tenant := ten, src := g, dst := s.lineEndpoint (wstBasin e) line, line := line, count := n - 1
      moff := moff, stream := stream, basin := wstBasin e, op := id, idx := idx }
  let first := wstLbase e + loff
  let data := (blockRuns first count count).map (fun p =>
    mk p.1 p.2 ((moff + (p.1 - first) * wstF e) % 8192) (p.1 - first))
  let rl := recLines e loff (loff + count)
  let recs := match rl with
    | [] => []
    | a :: _ => (blockRuns (wstRbase e + a) rl.length rl.length).map (fun p =>
        mk p.1 p.2 0 (2 ^ 20 + (p.1 - wstRbase e)))
  data ++ recs

/-- STREAM_READ: the command at the head, unless it is a FENCE: refused with CMD_INVALID or WINDOW_RANGE, held while its
landing meets an earlier one, or accepted, which clears PRESENT and queues its requests (R215, R217, R220, R221). -/
def execStreamRead (g : Nat) (s : State) : Out :=
  if numGranules ≤ g then .fault .noSuchUnit
  else
    let w := s.wharf g
    match w.headCmd, s.tenantOfGran g with
    | some (i, c, _), some ten =>
      let e := w.wst i
      if cmdOp c = 2 then .next s
      else if cmdInvalid e c then .next ((s.wharfRefuse g i whInvalid (cmdLoff c)).modWharf g Wharf.nextCmd)
      else if wstLsize e < cmdLoff c + cmdCount c then
        .next ((s.wharfRefuse g i whWindow (cmdLoff c)).modWharf g Wharf.nextCmd)
      else
        let land := landing e (cmdMoff c) (cmdCount c)
        let busy := w.reads.any (fun r => (landing (w.wst r.stream) r.moff r.count).any (fun m => land.contains m))
        if busy || decide (64 ≤ w.reads.length + w.fences.length) || !w.backlog.isEmpty then .next s
        else
          let moor := land.foldl (fun m k => Tbl.set m k { Tbl.get {} m k with present := false }) w.moor
          let rd : WharfRead := { id := w.nextOp, stream := i, loff := cmdLoff c, count := cmdCount c, moff := cmdMoff c }
          let bs := s.readBarges g ten i w.nextOp e (cmdLoff c) (cmdCount c) (cmdMoff c)
          let w := { w with moor := moor, reads := w.reads ++ [rd], nextOp := w.nextOp + 1 }
          .next ((s.setWharf g w.nextCmd).queueBarges g bs)
    | _, _ => .next s

/-- STREAM_FENCE: the FENCE at the head is taken and waits for what is earlier in its stream (R215). -/
def execStreamFence (g : Nat) (s : State) : Out :=
  if numGranules ≤ g then .fault .noSuchUnit
  else
    let w := s.wharf g
    match w.headCmd with
    | some (i, c, f) =>
      if cmdOp c ≠ 2 then .next s
      else if cmdInvalid (w.wst i) c then .next ((s.wharfRefuse g i whInvalid (cmdLoff c)).modWharf g Wharf.nextCmd)
      else if 64 ≤ w.reads.length + w.fences.length then .next s
      else
        let fc : WharfFence := { id := w.nextOp, stream := i, tile := cmdTile c, dst := f.dst, acnt := f.acnt }
        .next (s.setWharf g ({ w with fences := w.fences ++ [fc], nextOp := w.nextOp + 1 }).nextCmd)
    | none => .next s

/-- Is everything of the fence's stream that came before it complete (R215)? -/
def Wharf.fenceReady (w : Wharf) (f : WharfFence) : Bool :=
  w.reads.all (fun r => r.stream != f.stream || decide (f.id < r.id)) &&
  w.writes.all (fun p => p.2.1 != f.stream || decide (f.id < p.1)) &&
  w.fences.all (fun h => h.stream != f.stream || decide (f.id ≤ h.id))

/-- FENCE_COMPLETE: the oldest fence with nothing before it in its stream commits its completion flit and the counts of
its stream start again (R215). [DEDUCED: log 35] -/
def execFenceComplete (g : Nat) (s : State) : Out :=
  if numGranules ≤ g then .fault .noSuchUnit
  else
    let w := s.wharf g
    match w.fences.find? w.fenceReady with
    | none => .next s
    | some f =>
      let c := Tbl.get {} w.counts f.stream
      let pay := BitVec.ofNat 512 (packLE [(0, 4, c.done), (4, 4, c.failed), (8, 4, c.refused)])
      let w := { w with fences := w.fences.filter (fun h => h.id ≠ f.id), counts := w.counts.set f.stream {} }
      .next ((s.setWharf g w).modTile (tileAt g f.tile) (fun t => t.commit f.dst f.acnt pay 0))

/-! ### Writes (R216, R217) -/

/-- HOLD_WRITE_FLIT: the write flit at the head becomes a whole-line WR or ACC_WR, or is refused beyond LSIZE. -/
def execHoldWriteFlit (g : Nat) (s : State) : Out :=
  if numGranules ≤ g then .fault .noSuchUnit
  else
    let w := s.wharf g
    match w.inq, s.tenantOfGran g with
    | (_, f, _) :: _, some ten =>
      match w.dataOf f.ch with
      | some i =>
        let e := w.wst i
        if wstKind e ≠ 1 then .next s
        else
          let loff := f.acnt * 2 ^ 16 + f.dst
          if wstLsize e ≤ loff then .next ((s.wharfRefuse g i whWindow loff).modWharf g Wharf.popFlit)
          else if !w.backlog.isEmpty then .next s
          else
            let line := wstLbase e + loff
            let b : Barge := { ty := if wstAcc e then 3 else 2, tenant := ten, src := g
                               dst := s.lineEndpoint (wstBasin e) line, line := line, stream := i, payload := f.payload
                               bad := f.bad, basin := wstBasin e, op := w.nextOp }
            let w := { w with writes := w.writes ++ [(w.nextOp, i, loff)], nextOp := w.nextOp + 1 }
            .next ((s.setWharf g w.popFlit).queueBarges g [b])
      | none => .next s
    | _, _ => .next s

/-! ### Landing (R217, R218, R220, R221, R234) -/

/-- A mooring line is written and PRESENT. [DEDUCED: log 39] -/
def Wharf.land (w : Wharf) (m : Nat) (data : Line) (bad : BitVec 8) : Wharf :=
  { w with moor := w.moor.set (m % 8192) { data := data, bad := bad, present := true } }

/-- Scale bytes of source line `c` enter their gathered line, which is PRESENT once every line it gathers has landed. -/
def Wharf.landScales (w : Wharf) (e : BitVec 256) (rd : WharfRead) (c : Nat) (scales : List Nat) (poison : Bool) : Wharf :=
  if wstS e = 0 then w
  else
    let n := wstS e
    let m := (rd.moff + rd.count * wstF e + c * n / 64) % 8192
    let off := c * n % 64
    let old := Tbl.get {} w.moor m
    let first := c * n % 64 = 0
    let data := setBits (if first ∧ !(rd.settled.any (fun k => k * n / 64 == c * n / 64)) then 0 else old.data.toNat) (8 * off) (8 * n)
      (packElems 8 scales)
    let bad := if poison then old.bad ||| BitVec.ofNat 8 (2 ^ (off / 8)) else old.bad
    let whole := (List.range (64 / n)).all (fun j =>
      let k := c * n / 64 * (64 / n) + j
      k == c || rd.settled.contains k)
    { w with moor := w.moor.set m { data := BitVec.ofNat 512 data, bad := bad, present := whole } }

/-- Elements of an expansion that set a flag are counted; the first sets EXPAND_EXC (R218). -/
def Wharf.countExpansion (w : Wharf) (stream loff : Nat) (x : Expanded) : Wharf :=
  let w := { w with xof := sat16 w.xof x.nof, xnv := sat16 w.xnv x.nnv, xuf := sat16 w.xuf x.nuf }
  if x.nof + x.nnv + x.nuf = 0 then w else w.note stream whExpand loff

/-- Source line `c` of a READ lands with its records at hand. -/
def Wharf.landSource (w : Wharf) (rd : WharfRead) (c : Nat) (data : Line) (bad : BitVec 8) : Wharf :=
  let e := w.wst rd.stream
  let off := rd.loff + c
  let poison := bad != 0
  let bad : BitVec 8 := if wstXmode e = 0 ∨ !poison then bad else 0xFF
  let w := w.count rd.stream (fun k => { k with done := k.done + 1, failed := if poison then k.failed + 1 else k.failed })
  let w := if wstXmode e = 0 then w.land (rd.moff + c) data bad
    else
      let x := expand e rd.recs off data
      let w := if poison then w else w.countExpansion rd.stream off x
      let bytes := if wstToE4m3 e then 1 else 2
      let row := packElems (8 * bytes) x.elems
      let w := (List.range (wstF e)).foldl (fun w j =>
        w.land (rd.moff + c * wstF e + j) (BitVec.ofNat 512 (elemOf row 512 j)) bad) w
      w.landScales e rd c x.scales poison
  if poison then w.note rd.stream whPoison off else w

/-- Lands every received source line of a READ whose records have come; the READ ends when all its lines are settled.
[DEDUCED: log 37] -/
def Wharf.landReady (w : Wharf) (rd : WharfRead) : List (Nat × Line × BitVec 8) → Wharf × WharfRead
  | [] => (w, rd)
  | (c, data, bad) :: rest =>
    let e := w.wst rd.stream
    let need := recLines e (rd.loff + c) (rd.loff + c + 1)
    if need.all (fun r => (rd.recs.find r).isSome) then
      let recBad := need.any (fun r => (Tbl.get (0#512, false) rd.recs r).2)
      let w := w.landSource rd c data (if recBad then 0xFF else bad)
      w.landReady { rd with settled := c :: rd.settled } rest
    else
      let (w, rd) := w.landReady rd rest
      (w, { rd with got := rd.got.set c (data, bad) })

/-- Lands what has come of READ `rd` and keeps the rest. -/
def Wharf.progress (w : Wharf) (rd : WharfRead) : Wharf :=
  let (w, rd) := w.landReady { rd with got := [] } (rd.got.map (fun p => (p.1, p.2.1, p.2.2)))
  { w with reads := if rd.count ≤ rd.settled.length then w.reads.filter (fun r => r.id ≠ rd.id)
                    else w.reads.map (fun r => if r.id = rd.id then rd else r) }

/-- The first barge on its way from one endpoint to another (R207), with the rest. -/
def State.arriving (s : State) (src dst : Nat) : Option (Barge × List Barge) :=
  takeFirst (fun b => b.src == src && b.dst == dst) s.transit

/-- Source line `c` of a READ came in a replayed link block: its mooring lines say so (R51 code 1). -/
def Wharf.markRetry (w : Wharf) (rd : WharfRead) (c : Nat) (retry : Bool) : Wharf :=
  if retry then
    let f := wstF (w.wst rd.stream)
    { w with moor := (List.range f).foldl (fun m j =>
        let k := (rd.moff + c * f + j) % 8192
        Tbl.set m k { Tbl.get {} m k with retry := true }) w.moor }
  else w

/-- RD_RPL: a read reply reaches the wharf and lands, expanded as its stream asks; a line out of the window does not
land (R217, R218, R220, R221, R234); replies of commands that no longer stand are discarded (R239). -/
def execRdRpl (src g : Nat) (s : State) : Out :=
  if numGranules ≤ g then .fault .noSuchUnit
  else
    match s.arriving src g with
    | none => .next s
    | some (b, rest) =>
      if b.ty ≠ 5 then .next s
      else
        let s := { s with transit := rest }
        let w := s.wharf g
        match w.reads.find? (fun r => r.id == b.op) with
        | none => .next s
        | some rd =>
          if s.discards b.tenant then .next s
          else if 2 ^ 20 ≤ b.idx then
            let r := b.idx - 2 ^ 20
            let s := if b.status = 2 then s.wharfRefuse g rd.stream whWindow r else s
            let s := if b.status = 2 then s.modWharf g (fun w => w.count rd.stream (fun k => { k with refused := k.refused + 1 })) else s
            let w := s.wharf g
            .next (s.setWharf g (w.progress { rd with recs := rd.recs.set r (b.payload, b.poison || b.status ≠ 0 || b.bad ≠ 0) }))
          else if b.status = 2 then
            let s := s.wharfRefuse g rd.stream whWindow (rd.loff + b.idx)
            let w := (s.wharf g).count rd.stream (fun k => { k with refused := k.refused + 1 })
            .next (s.setWharf g (w.progress { rd with settled := b.idx :: rd.settled }))
          else
            .next (s.setWharf g ((w.progress { rd with
              got := rd.got.set b.idx (b.payload, if b.poison || b.status ≠ 0 then 0xFF else b.bad) }).markRetry rd b.idx b.retry))

/-- An acknowledgement reaches a wharf and counts for the next FENCE (R215, R217, R237). -/
def wharfAck (src g : Nat) (s : State) : Out :=
  if numGranules ≤ g then .fault .noSuchUnit
  else
    match s.arriving src g with
    | none => .next s
    | some (b, rest) =>
      if b.ty ≠ 6 then .next s
      else
        let s := { s with transit := rest }
        let w := s.wharf g
        match w.writes.find? (fun p => p.1 == b.op) with
        | none => .next s
        | some (_, i, loff) =>
          if s.discards b.tenant then .next s
          else
            let s := s.setWharf g { w with writes := w.writes.filter (fun p => p.1 ≠ b.op) }
            if b.status = 2 then
              let s := s.wharfRefuse g i whWindow loff
              .next (s.modWharf g (fun w => w.count i (fun k => { k with refused := k.refused + 1 })))
            else if b.status = 1 then
              let s := s.wharfRefuse g i whWriteFailed loff
              .next (s.modWharf g (fun w => w.count i (fun k => { k with done := k.done + 1, failed := k.failed + 1 })))
            else .next (s.modWharf g (fun w => w.count i (fun k => { k with done := k.done + 1 })))

/-! ### Pulls (R222) -/

/-- The mooring line that a request takes next. -/
def WharfPull.line (p : WharfPull) : Nat := (p.moff + p.sent) % 8192

/-- The tiles of the granule whose next line is absent report cause 2 at their next arrival (R222, R51). -/
def State.markAbsent (s : State) (g : Nat) (l : List WharfPull) : State :=
  l.foldl (fun s p =>
    let t := tileAt g p.tile
    (s.modTile t (fun tl => { tl with retryCause := tl.retryCause ||| 4#8 })).trace t 7 2 p.line) s

/-- The first element that satisfies `p` replaced, or removed. -/
def updateFirst {α : Type} (p : α → Bool) (f : α → Option α) : List α → List α
  | [] => []
  | a :: r => if p a then (match f a with | some b => b :: r | none => r) else a :: updateFirst p f r

/-- PULL_GRANT: the oldest request whose next line is PRESENT commits that line as a flit; requests found absent mark
their tiles (R178, R222). A pull of a tenant that is being reset is dropped: nothing commits or counts (R239, R240). -/
def execPullGrant (g : Nat) (s : State) : Out :=
  if numGranules ≤ g then .fault .noSuchUnit
  else
    let w := s.wharf g
    let here (p : WharfPull) : Bool := (Tbl.get {} w.moor p.line).present
    let s := s.markAbsent g (w.pulls.filter (fun p => !here p))
    match takeFirst here w.pulls with
    | none => .next s
    | some (p, _) =>
      if s.granClocked g && !s.wharfStopped g then
        let m := Tbl.get {} w.moor p.line
        let pulls := updateFirst here (fun p => if p.nflit ≤ p.sent + 1 then none else some { p with sent := p.sent + 1 }) w.pulls
        .next ((s.setWharf g { w with pulls := pulls }).modTile (tileAt g p.tile) (fun t =>
          ({ t with retryCause := if m.retry then t.retryCause ||| 2#8 else t.retryCause }).commit
            ((p.dst + p.sent) % 2 ^ 16) p.acnt m.data m.bad))
      else .next s

end Sys2Proof.Machine
end

