-- ==== Sys2Proof/Machine/Hold.lean ====
section
/-! DEFINITION. The Hold (08_canal_and_hold.md): windows, shard roles of lines (09), merged reads, accesses, views,
poison, stamps and rebuild. -/

namespace Sys2Proof.Machine

/-! ### Shard entries (R249, R250) -/

abbrev Ushd := BitVec 512

def shValid (e : Ushd) : Bool := bit e.toNat 0
/-- LAYOUT: true for layout E. -/
def shE (e : Ushd) : Bool := bit e.toNat 1
def shFact (e : Ushd) : Bool := bit e.toNat 2
def shGroup (e : Ushd) : Nat := bits e.toNat 4 6
def shDomctx (e : Ushd) : Nat := bits e.toNat 10 2
def shWfmt (e : Ushd) : Nat := bits e.toNat 12 4
def shWs (e : Ushd) : Bool := bit e.toNat 16
def shRepl (e : Ushd) : Nat := bits e.toNat 17 8
def shFexp (e : Ushd) : Int := sext (bits e.toNat 25 16) 16
def shTid (e : Ushd) : Nat := bits e.toNat 64 32
def shBbase (e : Ushd) : Nat := bits e.toNat 96 35
def shNblk (e : Ushd) : Nat := bits e.toNat 131 29
def shFbase (e : Ushd) : Nat := bits e.toNat 160 35
def shRows (e : Ushd) : Nat := bits e.toNat 224 32
def shCols (e : Ushd) : Nat := bits e.toNat 256 32
def shGrows (e : Ushd) : Nat := bits e.toNat 288 32
def shGcols (e : Ushd) : Nat := bits e.toNat 320 32
def shGrow0 (e : Ushd) : Nat := bits e.toNat 352 32
def shGcol0 (e : Ushd) : Nat := bits e.toNat 384 32

/-- Parameters per block (R246, R247). -/
def shP (e : Ushd) : Nat := if shE e then 384 else 448
/-- Parameters of the shard. -/
def shN (e : Ushd) : Nat := shRows e * shCols e
/-- Lines of master weights in a block (R246). -/
def masterLines (e : Ushd) : Nat := if shE e then 24 else 28
/-- Factor blocks of rows and of columns (R248). -/
def rowBlocks (e : Ushd) : Nat := cdiv (shRows e) 192
def colBlocks (e : Ushd) : Nat := cdiv (shCols e) 192
/-- Blocks of the factor region, the header first; none without factors. -/
def factorBlocks (e : Ushd) : Nat := if shFact e then 1 + rowBlocks e + colBlocks e else 0

/-- What a data line is to a shard: line `r` of block `b`, or of the factor region's block `b` (0 the header). -/
inductive Role where
  | block (entry b r : Nat)
  | factor (entry b r : Nat)
  deriving DecidableEq, Repr

/-- The role of a line under one entry. -/
def roleIn (n : Nat) (e : Ushd) (l : Nat) : Option Role :=
  if shValid e then
    if shBbase e ≤ l ∧ l < shBbase e + 64 * shNblk e then some (.block n ((l - shBbase e) / 64) ((l - shBbase e) % 64))
    else if shFact e ∧ shFbase e ≤ l ∧ l < shFbase e + 64 * factorBlocks e then
      some (.factor n ((l - shFbase e) / 64) ((l - shFbase e) % 64))
    else none
  else none

/-- The role of a data line. -/
def State.role (s : State) (l : Nat) : Option Role := s.ushd.findSome? (fun p => roleIn p.1 p.2 l)

/-- An entry of the shard table; the reset value of WFMT is 0x1 (R250). -/
def State.shard (s : State) (n : Nat) : Ushd := Tbl.get 0x1000#512 s.ushd n

/-- Is the line a gradient line (R246, R255)? -/
def State.isGradient (s : State) : Option Role → Bool
  | some (.block n _ r) =>
    let m := masterLines (s.shard n)
    decide (m ≤ r) && decide (r < 2 * m)
  | _ => false

/-- Is the line an increment line: increments of a factor block, or the header line with IT (R248, R255)? -/
def isIncrement : Option Role → Bool
  | some (.factor _ 0 r) => r == 0
  | some (.factor _ _ r) => decide (12 ≤ r) && decide (r < 60)
  | _ => false

/-! ### Windows (R224, R252) -/

/-- Does a line lie in the tenant's Hold window? -/
def State.inWindow (s : State) (ten l : Nat) : Bool :=
  let t := s.tenant ten
  decide (t.baseGib * 2 ^ 24 ≤ l) && decide (l < (t.baseGib + t.sizeGib) * 2 ^ 24)

/-- The tenant whose window holds a line. -/
def State.tenantOfLine (s : State) (l : Nat) : Option Nat := (s.tenants.find? (fun p => s.inWindow p.1 l)).map Prod.fst

/-- The device context of a shard entry: its tenant's context DOMCTX (R250, R40). -/
def State.shardCtx (s : State) (n : Nat) : Nat :=
  4 * ((s.tenantOfLine (shBbase (s.shard n))).getD 0) + shDomctx (s.shard n)

/-! ### The state of a line (R230, R234 to R236) -/

/-- [DESIGN CHOICE: log 155] -/
def State.holdLine (s : State) (l : Nat) : Line := BitVec.ofNat 512 (s.hold.readLE (64 * l) 64)
def State.lineMeta (s : State) (l : Nat) : HoldMeta := Tbl.get {} s.holdMeta l
def State.quadrant (s : State) (q : Nat) : Quadrant := Tbl.get {} s.quadrants q

/-- Is the line lost: it was held only on failed stacks (R236)? -/
def State.lineLost (s : State) (l : Nat) : Bool :=
  let pl := locate l
  let q := s.quadrant pl.quadrant
  match q.failed with
  | [] => false
  | [_] => false
  | f :: _ => q.failed.contains pl.k && !(pl.k == f && q.rebuilt && !q.failed.contains pl.p)

/-- Has the line's stripe all eight stacks, so that a failing line can be rebuilt (R234, R235)? -/
def State.redundant (s : State) (l : Nat) : Bool := (s.quadrant (locate l).quadrant).failed.isEmpty

/-- Is the line poisoned, or lost? -/
def State.linePoison (s : State) (l : Nat) : Bool := (s.lineMeta l).poison || s.lineLost l

def State.modStack (s : State) (k : Nat) (f : Stack → Stack) : State := s.setStack k (f (s.stack k))

/-- Counts a poisoned line (R234, R443). -/
def State.countPoison (s : State) (l : Nat) : State :=
  s.modStack (stackOf l) (fun c => { c with poisoned := sat16 c.poisoned 1, status := c.status ||| 4#4 })

/-! ### A failed stack (R235, R236, R442) -/

/-- Tenants that hold a Hold window. [DEDUCED: log 76] -/
def State.windowOwners (s : State) : Nat := (s.tenants.filter (fun p => p.2.st ≠ .free && decide (0 < p.2.sizeGib))).length

/-- The unit that takes over a failed stack's blocks: position k + 1 modulo 8 of its quadrant (R442). -/
def takingUnit (k : Nat) : Nat := 8 * (k / 8) + (k % 8 + 1) % 8

/-- A stack fails: its quadrant runs degraded and the background rebuild begins (R235, R236, R442); the parity can rebuild only the
first failed stack of a quadrant, and a second failure ends a rebuild that is under way. -/
def State.failStack (s : State) (k : Nat) : State :=
  if (s.stack k).failed then s
  else
    let q := k / 8
    let quad := Tbl.get {} s.quadrants q
    let first := quad.failed.isEmpty
    let s := { s with quadrants := s.quadrants.set q { quad with failed := quad.failed ++ [k % 8] } }
    let s := (List.range 8).foldl (fun (s : State) i =>
      let u := s.stack (8 * q + i)
      s.setStack (8 * q + i) { u with degraded := true, rebuilding := first
                                      status := u.status ||| 1#4 }) s
    let s := s.setStack k { s.stack k with failed := true }
    let s := s.setStack (takingUnit k) { s.stack (takingUnit k) with takeover := true }
    s.faultEvent 4 4 k 0 0 0 s.windowOwners

/-- A line of a stack is rebuilt from its stripe; a stack of which more than 1,024 lines are rebuilt within 1 s fails
(R234, R442, R443). -/
def State.countRebuilt (s : State) (k : Nat) : State :=
  let times := s.now :: (s.stack k).rebuilds.filter (fun t => decide (s.now < t + 1000000000))
  let s := s.modStack k (fun c => { c with rebuilt := sat16 c.rebuilt 1, status := c.status ||| 2#4, rebuilds := times })
  if 1024 < times.length then s.failStack k else s

/-! ### Stored lines (R230 to R232) -/

/-- A line as the stack stores it, 76 B (R230). -/
structure StoredLine where
  cipher : Line
  tag : Word
  stamp : Word
  ecc : Word
  deriving DecidableEq, Repr

/-- The keys of a line: its tenant's, or the device keys (R231, R233). -/
def State.lineKeys (s : State) (l : Nat) : BitVec 768 :=
  match s.tenantOfLine l with
  | some n => ((s.tenant n).keys).getD Config.deviceKeys
  | none => Config.deviceKeys

/-- Bytes `lo` to `lo + n - 1` of a key register. [DESIGN CHOICE: log 176] -/
def keyBytes (k : BitVec 768) (lo n : Nat) : List Nat := natBytesLE n (k.toNat >>> (8 * lo))

/-- The ciphertext of a line: XTS-AES-256, the data unit being the line and its sequence number the data line (R231). -/
def encryptLine (k : BitVec 768) (l : Nat) (d : Line) : Line :=
  BitVec.ofNat 512 (packElems 8 (xtsEncrypt (keyBytes k 0 32) (keyBytes k 32 32) l (natBytesLE 64 d.toNat)))

/-- The plaintext of a ciphertext. -/
def decryptLine (k : BitVec 768) (l : Nat) (c : Line) : Line :=
  BitVec.ofNat 512 (packElems 8 (xtsDecrypt (keyBytes k 0 32) (keyBytes k 32 32) l (natBytesLE 64 c.toNat)))

/-- The tag: the leftmost 32 bits of AES-CMAC over the ciphertext and the line number, the first byte the most significant (R232). -/
def lineTag (k : BitVec 768) (l : Nat) (c : Line) : Word :=
  BitVec.ofNat 32 (ofNatBytes ((aesCmac (keyBytes k 64 32) (natBytesLE 64 c.toNat ++ natBytesLE 8 l)).take 4))

/-- The 72 symbols that the check bits cover. -/
def StoredLine.covered (x : StoredLine) : BitVec 576 := BitVec.ofNat 576 (x.cipher.toNat + x.tag.toNat * 2 ^ 512 + x.stamp.toNat * 2 ^ 544)

/-- What the stack holds of a line: it is a function of the plaintext, the keys and the stamp that State holds (R230).
[DEDUCED: log 155] -/
def State.stored (s : State) (l : Nat) : StoredLine :=
  let k := s.lineKeys l
  let c := encryptLine k l (s.holdLine l)
  let x : StoredLine := { cipher := c, tag := lineTag k l c, stamp := (s.lineMeta l).stamp, ecc := 0 }
  { x with ecc := Config.lineEcc x.covered }

/-- A stored line with the bits of a pattern over ciphertext, tag and stamp inverted. -/
def StoredLine.altered (x : StoredLine) (e : BitVec 576) : StoredLine :=
  { x with cipher := x.cipher ^^^ e.setWidth 512, tag := x.tag ^^^ (e >>> 512).setWidth 32, stamp := x.stamp ^^^ (e >>> 544).setWidth 32 }

/-- Does a stored line pass the check of its tag (R234 step 1)? -/
def tagPasses (k : BitVec 768) (l : Nat) (x : StoredLine) : Bool := lineTag k l x.cipher == x.tag

/-- What a read of line `l` meets, as operand `err` tells it: `err` mod 4 is 0 where the ECC finds nothing, 1 where it corrects, 2
and 3 where the line must be rebuilt, which succeeds in 2 and fails in 3; `err` div 4 is the error pattern that the ECC leaves in
the line, which then must pass its tag. The answer is what the checks come to, coded alike (R232, R234). -/
def State.verdict (s : State) (l err : Nat) : Nat :=
  if err < 4 ∨ tagPasses (s.lineKeys l) l ((s.stored l).altered (BitVec.ofNat 576 (err / 4))) then err % 4
  else if err % 4 = 3 then 3 else 2

/-- The line after an error pattern that passed both checks: the device holds the altered line for good (R234). -/
def State.slipped (s : State) (l err : Nat) : State :=
  if err < 4 then s
  else
    let x := (s.stored l).altered (BitVec.ofNat 576 (err / 4))
    { s with hold := s.hold.writeLE (64 * l) 64 (decryptLine (s.lineKeys l) l x.cipher).toNat
             holdMeta := Tbl.put {} s.holdMeta l { s.lineMeta l with stamp := x.stamp } }

/-- The check of a line at a read (R234, R235): nothing found, corrected by ECC, rebuilt from its stripe, or failing beyond
rebuild, which poisons it. -/
def State.checkLine (s : State) (l err : Nat) : State :=
  if s.linePoison l then s
  else match s.verdict l err with
  | 0 => s.slipped l err
  | 1 => (s.slipped l err).modStack (stackOf l) (fun c => { c with corrected := BitVec.ofNat 32 (satAdd 32 c.corrected.toNat 1) })
  | e =>
    if e = 2 ∧ s.redundant l then
      s.countRebuilt (stackOf l)
    else
      ({ s with holdMeta := s.holdMeta.set l { s.lineMeta l with poison := true } }).countPoison l

/-- Writes 64 bytes of a line with its stamp, clearing poison. -/
def State.writeLine (s : State) (l : Nat) (data : Line) (stamp : Word) : State :=
  { s with hold := s.hold.writeLE (64 * l) 64 data.toNat, holdMeta := Tbl.put {} s.holdMeta l { poison := false, stamp := stamp } }

/-! ### Working-copy views (R252 to R254) -/

/-- Element lines of the view of a block, before the scale line (R253). -/
def viewElemLines (e : Ushd) : Nat := cdiv (shP e * codeBits (shWfmt e)) 512
/-- VL. -/
def viewLines (e : Ushd) : Nat := viewElemLines e + (if shWs e then 1 else 0)

/-- The master weights of a block as values; padding parameters are +0 (R254). -/
def State.masters (s : State) (n b : Nat) : List Fv :=
  let e := s.shard n
  (List.range (shP e)).map (fun p =>
    if b * shP e + p < shN e then
      decodeFmt binary32 false (s.hold.readLE (64 * (shBbase e + 64 * b) + 4 * p) 4)
    else .fin false 0 0)

/-- The 32-parameter runs of a list. -/
def runs32 {α : Type} (l : List α) : List (List α) := (List.range (cdiv l.length 32)).map (fun i => (l.drop (32 * i)).take 32)

/-- The view of a block: packed element codes and scale bytes (R254). -/
def State.viewBlock (s : State) (n b : Nat) : Nat × List Nat :=
  let e := s.shard n
  let f := codeFmt (shWfmt e)
  let vs := s.masters n b
  let w := codeBits (shWfmt e)
  if shWs e then
    let bl := (runs32 vs).map (fun r => computedBlock f 0 r (r.map (fun _ => 0)))
    (packElems w (bl.flatMap (fun x => x.2.1)), bl.map (fun x => x.1))
  else (packElems w (vs.map (fun v => (convert f 0 true 0 v).1)), [])

/-- The master lines of a block that line `r` of its view covers (R254). -/
def viewCovers (e : Ushd) (r : Nat) : List Nat :=
  if viewElemLines e ≤ r then List.range (masterLines e)
  else
    let w := codeBits (shWfmt e)
    let lo := 512 * r / w / 16
    let hi := min ((512 * r + 511) / w / 16) (masterLines e - 1)
    (List.range (hi + 1 - lo)).map (fun i => lo + i)

/-- The view line of data line `l` and whether it is poisoned; none where no view is defined (R253). -/
def State.viewLine (s : State) (l : Nat) : Option (Line × Bool) :=
  match s.role l with
  | some (.block n b r) =>
    let e := s.shard n
    if viewLines e ≤ r then none
    else
      let poison := (viewCovers e r).any (fun i => s.linePoison (shBbase e + 64 * b + i))
      let (row, scales) := s.viewBlock n b
      some (if viewElemLines e ≤ r then BitVec.ofNat 512 (packElems 8 scales) else BitVec.ofNat 512 (elemOf row 512 r), poison)
  | _ => none

/-! ### Acceptance (R228, R237, R255, R262) -/

/-- The step attempt of a context whose sweep has yet to process lines (R260, R261). -/
def Ctx.sweeping (cx : Ctx) : Option StepRun :=
  match cx.upd.run with
  | some r => if r.skip then none else some r
  | none => none

/-- Is the update block or factor block of a line still to be processed for the step under way (R261, R262)? -/
def State.unprocessed (s : State) : Option Role → Bool
  | some (.block n b _) =>
    (match (s.ctx (s.shardCtx n)).sweeping with
     | some r => !r.blocksDone.contains (n, b)
     | none => false)
  | some (.factor n b _) =>
    let cx := s.ctx (s.shardCtx n)
    (match cx.sweeping with
     | some r => cx.upd.fpass && !r.factorDone.contains (n, b)
     | none => false)
  | none => false

/-- The context of a line's shard. -/
def State.roleCtx (s : State) : Option Role → Nat
  | some (.block n _ _) => s.shardCtx n
  | some (.factor n _ _) => s.shardCtx n
  | none => 0

/-- The reply barge to an access (R209). [DEDUCED: log 41] -/
def HoldOp.answer (o : HoldOp) (k : Nat) (data : Line) (poison : Bool) (status : Nat) : Barge :=
  { ty := if o.ty = 1 then 5 else 6, tenant := o.tenant, prov := o.prov, src := 576 + k, dst := o.src, line := o.line
    count := o.count, moff := o.moff, stream := o.stream, status := status, poison := poison
    payload := data, op := o.op, idx := o.idx }

/-- A barge joins the egress of a controller. -/
def State.leave (s : State) (k : Nat) (b : Barge) : State :=
  { s with egress := s.egress.set (576 + k) (Tbl.get [] s.egress (576 + k) ++ [b]) }

/-- A reply leaves for the requester (R209). -/
def State.reply (s : State) (k : Nat) (o : HoldOp) (data : Line) (poison : Bool) (status : Nat) : State :=
  s.leave k (o.answer k data poison status)

/-- The replication set whose wharves are exactly the requesters of some accesses, one each (R229). -/
def State.replSet (s : State) (os : List HoldOp) : Option Nat :=
  let ws := os.map HoldOp.src
  if ws.length < 2 ∨ ws.eraseDups.length ≠ ws.length then none
  else (s.replSets.find? (fun p => p.2.eraseDups.length == ws.length && p.2.all ws.contains)).map Prod.fst

/-- Replies that land at one MOFF and are ready together: one barge to a replication set, or one to each requester (R229). -/
def State.replyGroup (s : State) (k : Nat) (os : List HoldOp) (data : Line) (poison : Bool) (status : Nat) : State :=
  match os, s.replSet os with
  | o :: _, some n => s.leave k { o.answer k data poison status with
      dst := n, mc := true, copies := os.map (fun x => (x.src, x.op, x.idx, x.stream)) }
  | _, _ => os.foldl (fun s o => s.reply k o data poison status) s

/-- The replies of a merge entry, to its opener and its joiners (R228, R229). -/
def State.replyAll (s : State) (k : Nat) (os : List HoldOp) (data : Line) (poison : Bool) (status : Nat) : State :=
  ((os.map HoldOp.moff).eraseDups).foldl (fun s m => s.replyGroup k (os.filter (fun o => o.moff == m)) data poison status) s

/-- May a tenant read the line: its data line lies in the window, and a view is defined (R252, R253)? -/
def State.readable (s : State) (ten line : Nat) : Bool :=
  s.inWindow ten (dataLine line) && (decide (line < viewBase) || (s.viewLine (dataLine line)).isSome)

/-- May the sender of a barge read a line: the provider any data line, a tenant those of its window (R231, R252)? -/
def State.mayRead (s : State) (b : Barge) (line : Nat) : Bool :=
  if b.prov then decide (line < viewBase) else s.readable b.tenant line

/-- Merge entries that an owner may hold in a controller: 128 for the provider, 8 × n for a tenant (R228). -/
def State.mergePart (s : State) (b : Barge) : Nat := if b.prov then 128 else 8 * (s.tenant b.tenant).canal

/-- Do an entry and an access have one owner? -/
def Merge.ofOwner (m : Merge) (o : HoldOp) : Bool := m.prov == o.prov && (o.prov || m.tenant == o.tenant)

/-- Must the access wait: a read of a block being swept, or a late write, until the block is processed (R261, R262)? -/
def State.opHeld (s : State) (o : HoldOp) : Bool :=
  let role := s.role (dataLine o.line)
  match o.ty, role with
  | 1, some (.block _ _ _) => s.unprocessed role
  | 1, _ => false
  | _, _ => o.late && s.unprocessed role

/-- The merge entries that `on` picks close: no read joins them any more (R228). -/
def Stack.closeMerges (c : Stack) (on : Merge → Bool) : Stack :=
  { c with merges := c.merges.map (fun m => if on m then { m with closed := true } else m) }

/-- An HUU has written lines: on every stack the entries whose data were read before close (R228, R261). -/
def State.closeRead (s : State) (lo n : Nat) : State :=
  { s with stackTbl := s.stackTbl.map (fun p => (p.1, p.2.closeMerges (fun m =>
      m.ready.isSome && decide (lo ≤ dataLine m.line) && decide (dataLine m.line < lo + n)))) }

/-- RD_REQ: a controller accepts the next line of a request: it joins an open merge entry of the same line within 256 kc
of the opening, or opens one if there is room in its owner's part, or makes its own access (R228). A read that the sweep
holds joins no entry whose data were read before (R261). -/
def execRdReq (src k : Nat) (s : State) : Out :=
  if 32 ≤ k then .fault .noSuchUnit
  else
    match s.arriving src (576 + k) with
    | none => .next s
    | some (b, rest) =>
      if b.ty ≠ 1 then .next s
      else
        let left := if b.taken = b.count then rest
          else updateFirst (fun x => x.src == src && x.dst == 576 + k) (fun x => some { x with taken := x.taken + 1 }) s.transit
        let s := { s with transit := left }
        let o : HoldOp := { ty := 1, line := b.line + b.taken, tenant := b.tenant, prov := b.prov, src := src, moff := (b.moff + b.taken) % 8192
                            stream := b.stream, count := b.taken, op := b.op, idx := b.idx + b.taken }
        if !s.mayRead b o.line then .next (s.reply k o 0 false 2)
        else
          let c := s.stack k
          let mine (m : Merge) : Bool := m.line == o.line && m.ofOwner o && !m.closed && !(m.ready.isSome && s.opHeld o)
          match c.merges.find? mine with
          | some m =>
            if s.now ≤ m.opened + 128 then
              match m.ready with
              | some (d, p, st) => .next (s.reply k o d p st)
              | none => .next (s.setStack k { c with
                  merges := updateFirst mine (fun m => some { m with waiting := m.waiting ++ [o] }) c.merges })
            else .next (s.setStack k { c with ops := c.ops ++ [o] })
          | none =>
            if (c.merges.filter (fun m => m.ofOwner o)).length < s.mergePart b then
              .next (s.setStack k { c with
                ops := c.ops ++ [{ o with merged := true }]
                merges := c.merges ++ [{ line := o.line, tenant := o.tenant, prov := o.prov, opened := s.now }] })
            else .next (s.setStack k { c with ops := c.ops ++ [o] })

/-- MERGE_WINDOW_END: an entry whose 256 kc are over, or that a write has closed, goes once its data are ready (R228). -/
def execMergeWindowEnd (k : Nat) (s : State) : Out :=
  if 32 ≤ k then .fault .noSuchUnit
  else
    let c := s.stack k
    let past (m : Merge) : Bool := m.ready.isSome && (m.closed || decide (m.opened + 128 ≤ s.now))
    .next (if c.merges.any past then s.setStack k { c with merges := updateFirst past (fun _ => none) c.merges } else s)

/-- A write is accepted: it closes open merge entries of its line (R228); late writes of a step are marked (R262);
lines that may not be written are acknowledged WINDOW_RANGE (R217, R252, R255); a write of a tenant that is being reset is
dropped whole (R239). -/
def acceptWrite (ty src k : Nat) (s : State) : Out :=
  if 32 ≤ k then .fault .noSuchUnit
  else
    match s.arriving src (576 + k) with
    | none => .next s
    | some (b, rest) =>
      if b.ty ≠ ty then .next s
      else
        let s := { s with transit := rest }
        if !b.prov && s.discards b.tenant then .next s
        else
        let role := s.role b.line
        let shardLine := s.isGradient role || isIncrement role
        let c := s.roleCtx role
        let o : HoldOp := { ty := ty, line := b.line, tenant := b.tenant, prov := b.prov, src := src, stream := b.stream, op := b.op
                            wmask := b.wmask, payload := b.payload, bad := b.bad
                            mbn := if shardLine then (s.ctx c).mbn else 0
                            late := shardLine && (s.ctx c).upd.run.isSome }
        if (!b.prov && !s.inWindow b.tenant b.line) || decide (viewBase ≤ b.line) || (ty == 3 && !shardLine) then .next (s.reply k o 0 false 2)
        else
          let s := if o.late then s.modCtx c (fun cx => { cx with upd := { cx.upd with ustatus := cx.upd.ustatus ||| 4#9 } }) else s
          let st := s.stack k
          .next (s.setStack k ({ st with ops := st.ops ++ [o] }.closeMerges (fun m => dataLine m.line == b.line)))

/-- WR: a controller accepts a write (R237, R238). -/
def execWr (src k : Nat) (s : State) : Out := acceptWrite 2 src k s
/-- ACC_WR: a controller accepts an accumulating write (R255). -/
def execAccWr (src k : Nat) (s : State) : Out := acceptWrite 3 src k s

/-! ### Accesses (R226, R234 to R238, R255, R261, R437) -/

/-- Bytes of the selected words taken from `new`. -/
def maskedLine (old new : Line) (wmask : BitVec 8) : Line :=
  BitVec.ofNat 512 (packElems 64 ((List.range 8).map (fun i => elemOf (if wmask.getLsbD i then new else old).toNat 64 i)))

/-- A gradient line with the selected values added (R255). -/
def accGradient (old add : Line) (wmask : BitVec 8) : Line :=
  BitVec.ofNat 512 (packElems 32 ((List.range 16).map (fun j =>
    let a := elemOf old.toNat 32 j
    if wmask.getLsbD (j / 2) then add32 a (elemOf add.toNat 32 j) else a)))

/-- An increment line with the selected partials combined; of the header line only IT (R255). -/
def accIncrement (header : Bool) (old add : Line) (wmask : BitVec 8) : Line :=
  BitVec.ofNat 512 (packElems 128 ((List.range 4).map (fun j =>
    let a := elemOf old.toNat 128 j
    if wmask.getLsbD (2 * j) && wmask.getLsbD (2 * j + 1) && (!header || j == 1) then
      winBits (combineWin (winOfBits a) (winOfBits (elemOf add.toNat 128 j)))
    else a)))

/-- One write access: the state and its STATUS, 0 OK or 1 INTEGRITY_FAILED (R237, R238, R255, R437). [DEDUCED: log 42, 44] -/
def State.writeAccess (s : State) (o : HoldOp) (err : Nat) : State × Nat :=
  let l := o.line
  let role := s.role l
  let stamped := s.isGradient role || isIncrement role
  let stamp : Word := if stamped then o.mbn else 0
  let hitWords := o.bad &&& o.wmask
  if stamped && o.ty == 3 && decide (hitWords ≠ 0) then (s, 1)
  else if stamped && (s.lineMeta l).stamp == o.mbn && !(s.linePoison l) then (s, 0)
  else if o.ty = 2 ∧ o.wmask = 0xFF then
    if s.lineLost l then (s, 1)
    else if o.bad ≠ 0 then
      let s := s.writeLine l o.payload stamp
      (({ s with holdMeta := s.holdMeta.set l { poison := true, stamp := stamp } }).countPoison l, 1)
    else (s.writeLine l o.payload stamp, 0)
  else
    let s := s.checkLine l err
    if s.linePoison l || decide (hitWords ≠ 0) then (s, 1)
    else
      let old := s.holdLine l
      let new := if o.ty = 2 then maskedLine old o.payload o.wmask
        else if s.isGradient role then accGradient old o.payload o.wmask
        else accIncrement (match role with | some (.factor _ 0 _) => true | _ => false) old o.payload o.wmask
      (s.writeLine l new stamp, 0)

/-- One read access: the state, the data, POISON and STATUS (R234, R254). -/
def State.readAccess (s : State) (o : HoldOp) (err : Nat) : State × Line × Bool × Nat :=
  let l := dataLine o.line
  if viewBase ≤ o.line then
    let first := match s.role l with
      | some (.block n b r) => shBbase (s.shard n) + 64 * b + (viewCovers (s.shard n) r).headD 0
      | _ => l
    let s := s.checkLine first err
    match s.viewLine l with
    | some (d, p) => (s, d, p, 0)
    | none => (s, 0, false, 2)
  else
    let s := s.checkLine l err
    (s, s.holdLine l, s.linePoison l, 0)

/-- The owner of an access, by number: a tenant, or 256 for the provider (R226). -/
def HoldOp.owner (o : HoldOp) : Nat := if o.prov then 256 else o.tenant

/-- The first access of an owner that may be made: not held, and with no earlier access to its line before it (R226). -/
def State.nextAccess (s : State) (ten : Nat) : List HoldOp → List Nat → Option HoldOp
  | [], _ => none
  | o :: r, seen =>
    if o.owner = ten ∧ !seen.contains (dataLine o.line) ∧ !s.opHeld o then some o
    else s.nextAccess ten r (dataLine o.line :: seen)

/-- HOLD_ACCESS_SLOT: the controller of stack `k` makes one access of tenant `ten` in its slot and answers it; `err`
says what the check of the line finds (R226, R228, R234). -/
def execHoldAccessSlot (k tenant err : Nat) (s : State) : Out :=
  if 32 ≤ k then .fault .noSuchUnit
  else
    match s.nextAccess tenant (s.stack k).ops [] with
    | none => .next s
    | some o =>
      let c := s.stack k
      if c.refreshOnly then .next s else
      let s := s.setStack k { c with ops := updateFirst (fun x => x = o) (fun _ => none) c.ops }
      if o.ty = 1 then
        let (s, d, p, st) := s.readAccess o err
        let c := s.stack k
        let mine (m : Merge) : Bool := m.line == o.line && m.ofOwner o && m.ready.isNone
        match (if o.merged then c.merges.find? mine else none) with
        | none => .next (s.reply k o d p st)
        | some m =>
          let s := s.setStack k { c with
            merges := updateFirst mine (fun m => some { m with ready := some (d, p, st), waiting := [] }) c.merges }
          .next (s.replyAll k (o :: m.waiting) d p st)
      else
        let (s, st) := s.writeAccess o err
        .next (s.reply k o 0 false st)

/-- PATROL_SCRUB: the scrub reads a data line, and writes it back where it needed correction (R226, R234). -/
def execPatrolScrub (line err : Nat) (s : State) : Out :=
  if viewBase ≤ line then .fault .noSuchUnit else .next (s.checkLine line err)

end Sys2Proof.Machine
end

