-- ==== Sys2Proof/Machine/Update.lean ====
section
/-! DEFINITION. Hold update units (09_update_units.md): group records, step prologue, factor pass, update rules, sweep,
digests, and an HUU's arrival at a lock. -/

namespace Sys2Proof.Machine

/-! ### Binary32 and binary64 arithmetic on encodings, RNE (R263 to R266) -/

def f32 (x : Nat) : Fv := decodeFmt binary32 false x
def f64 (x : Nat) : Fv := decodeFmt binary64 false x
def enc32 (r : Fv × Nat) : Nat := (finish binary32 0 false r).1
def enc64 (r : Fv × Nat) : Nat := (finish binary64 0 false r).1
def negFv (v : Fv) : Fv := v.withSign (!v.sign)

def mulE (a b : Nat) : Nat := enc32 (fvMul (f32 a) (f32 b))
def addE (a b : Nat) : Nat := enc32 (fvAdd 0 (f32 a) (f32 b))
def divE (a b : Nat) : Nat := enc32 (fvDiv (f32 a) (f32 b))
def sqrtE (a : Nat) : Nat := enc32 (fvSqrt (f32 a))
/-- a × b + c with one rounding. -/
def fmaE (a b c : Nat) : Nat := enc32 (fvFma 0 (f32 a) (f32 b) (f32 c))
/-- c − a × b with one rounding. -/
def fnmaE (a b c : Nat) : Nat := enc32 (fvFma 0 (negFv (f32 a)) (f32 b) (f32 c))
/-- A number rounded to binary32. -/
def round32 (v : Fv) : Nat := enc32 (v, 0)
def ofNat32 (n : Nat) : Nat := round32 (.fin false n 0)
def one32 : Nat := ofNat32 1
/-- 1 − x in binary32. -/
def oneMinus (x : Nat) : Nat := enc32 (fvAdd 0 (.fin false 1 0) (negFv (f32 x)))

def mul64 (a b : Nat) : Nat := enc64 (fvMul (f64 a) (f64 b))
def add64E (a b : Nat) : Nat := enc64 (fvAdd 0 (f64 a) (f64 b))
def sub64 (a b : Nat) : Nat := enc64 (fvAdd 0 (f64 a) (negFv (f64 b)))
def div64 (a b : Nat) : Nat := enc64 (fvDiv (f64 a) (f64 b))
def ofNat64 (n : Nat) : Nat := enc64 (.fin false n 0, 0)
/-- A binary32 number as binary64, exactly. -/
def widen (x : Nat) : Nat := enc64 (f32 x, 0)

/-! ### Group records (R251) -/

abbrev Ugrp := List Byte

/-- The group record of a tenant. -/
def State.group (s : State) (ten g : Nat) : Ugrp := Tbl.get (List.replicate 1024 0#8) s.ugrp (64 * ten + g)
def grpField (g : Ugrp) (off n : Nat) : Nat := ofBytesLE ((g.drop off).take n)
def grpRule (g : Ugrp) : Nat := grpField g 0 1
def grpNesterov (g : Ugrp) : Bool := bit (grpField g 1 1) 0
def grpMsr (g : Ugrp) : Bool := bit (grpField g 1 1) 1
def grpClip (g : Ugrp) : Bool := bit (grpField g 1 1) 2
def grpSched (g : Ugrp) : Nat := grpField g 2 1
def grpNpts (g : Ugrp) : Nat := grpField g 3 1
def grpPeak (g : Ugrp) : Nat := grpField g 4 4
def grpFinal (g : Ugrp) : Nat := grpField g 8 4
def grpWarmup (g : Ugrp) : Nat := grpField g 12 4
def grpDecay (g : Ugrp) : Nat := grpField g 16 4
def grpBeta1 (g : Ugrp) : Nat := grpField g 20 4
def grpBeta2 (g : Ugrp) : Nat := grpField g 24 4
def grpEps (g : Ugrp) : Nat := grpField g 28 4
def grpEps1 (g : Ugrp) : Nat := grpField g 32 4
def grpWd (g : Ugrp) : Nat := grpField g 36 4
def grpTau (g : Ugrp) : Nat := grpField g 40 4
def grpStream (g : Ugrp) : Nat := grpField g 44 4
def grpPtStep (g : Ugrp) (k : Nat) : Nat := grpField g (64 + 8 * k) 4
def grpPtLr (g : Ugrp) (k : Nat) : Nat := grpField g (68 + 8 * k) 4

/-! ### Learning-rate schedule and prologue (R263, R264) -/

/-- lr_sched(t), a binary64 number (R264). -/
def lrSched (g : Ugrp) (t : Nat) : Nat :=
  let peak := widen (grpPeak g)
  let fin := widen (grpFinal g)
  if t ≤ grpWarmup g then div64 (mul64 peak (ofNat64 t)) (ofNat64 (grpWarmup g))
  else
    let d := t - grpWarmup g
    let x := div64 (ofNat64 d) (ofNat64 (grpDecay g))
    match grpSched g with
    | 0 => peak
    | 1 => if grpDecay g ≤ d then fin else add64E peak (mul64 (sub64 fin peak) x)
    | 2 =>
      if grpDecay g ≤ d then fin
      else
        let c := match f64 x with
          | .fin n m e => cospiRne n m e
          | _ => ofNat64 1
        add64E fin (div64 (mul64 (sub64 peak fin) (add64E (ofNat64 1) c)) (ofNat64 2))
    | _ =>
      let n := grpNpts g
      let last := n - 1
      if d ≤ grpPtStep g 0 then widen (grpPtLr g 0)
      else if grpPtStep g last ≤ d then widen (grpPtLr g last)
      else
        let k := ((List.range last).filter (fun k => decide (grpPtStep g k ≤ d))).getLastD 0
        let l0 := widen (grpPtLr g k)
        let l1 := widen (grpPtLr g (k + 1))
        add64E l0 (mul64 (sub64 l1 l0)
          (div64 (ofNat64 (d - grpPtStep g k)) (ofNat64 (grpPtStep g (k + 1) - grpPtStep g k))))

/-- x^t of a binary32 number, rounded once to binary64 (R263). -/
def powRne (x t : Nat) : Nat :=
  match f32 x with
  | .fin n m e => enc64 (.fin (n && t % 2 == 1) (m ^ t) (e * t), 0)
  | v => enc64 (v, 0)

/-- The factor 1 / (1 − beta^t), binary32. -/
def biasCorrection (beta t : Nat) : Nat := round32 (f64 (div64 (ofNat64 1) (sub64 (ofNat64 1) (powRne beta t))))

/-- The step parameters of one group, and its clip factor (R263). -/
def groupStep (g : Ugrp) (t nrm tok : Nat) : GroupStep × Nat :=
  let tau := widen (grpTau g)
  let c := if grpClip g && fvLt (f64 tau) (f64 nrm) then div64 tau nrm else ofNat64 1
  let lr := round32 (f64 (lrSched g t))
  let adaptive := grpRule g == 1
  ({ k := round32 (f64 (div64 c tok)), lr := lr, dl := round32 (f64 (mul64 (widen lr) (widen (grpWd g))))
     bc1 := if adaptive then biasCorrection (grpBeta1 g) t else 0
     bc2 := if adaptive then biasCorrection (grpBeta2 g) t else 0 }, round32 (f64 c))

/-- The shard entries of a context. -/
def State.shardsOf (s : State) (c : Nat) : List (Nat × Ushd) :=
  s.ushd.filter (fun p => shValid p.2 && s.shardCtx p.1 == c && (s.tenantOfLine (shBbase p.2)).isSome)

def usSkipNonfinite : BitVec 9 := 1
def usSkipTokens : BitVec 9 := 2
def usStatePoison : BitVec 9 := 8
def usNonfinite : BitVec 9 := 16
def usFactorLow : BitVec 9 := 32
def usFactorHigh : BitVec 9 := 64
def usDigest : BitVec 9 := 128
def usCargo : BitVec 9 := 256

def Update.flag (u : Update) (f : BitVec 9) : Update := { u with ustatus := u.ustatus ||| f }

/-- N_s of the next step attempt (R259). -/
def Update.nextN (u : Update) : Nat := u.n0 + u.attempts * u.lstep

/-- C_s of an attempt at N_s (R259). -/
def Update.sweepEnd (u : Update) (n : Nat) : Nat := n + (if u.fpass then 1 else 0) + u.wsweep

/-- The step prologue at the release of N_s (R263). [DEDUCED: log 47, 48] -/
def State.stepPrologue (s : State) (c : Nat) (r : Release) : State :=
  let cx := s.ctx c
  let u := cx.upd
  let s2 := (r.cargo.toList.getD u.nslot 0).toNat
  let tok := (r.cargo.toList.getD u.tslot 0).toNat
  let st := r.status.toNat
  let u := if bit st u.nslot || bit st (4 + u.nslot) then u.flag usCargo else u
  let blank : StepRun := { t := u.ustep + 1, lock := r.index, norm := u.unorm, skip := true, c := 0, groups := []
                           factorDone := [], blocksDone := [], digests := [] }
  let skip (f : BitVec 9) : State :=
    s.setCtx c { cx with upd := { u.flag f with
      attempts := u.attempts + 1, uskip := BitVec.ofNat 32 (satAdd 32 u.uskip.toNat 1), run := some blank } }
  if (f64 s2).nonfinite || bit st (8 + u.nslot) then skip usSkipNonfinite
  else if (f64 tok).nonfinite || !fvLt (.fin false 0 0) (f64 tok) then skip usSkipTokens
  else
    let nrm := div64 (enc64 (fvSqrt (f64 s2))) tok
    let t := u.ustep + 1
    let gs := ((s.shardsOf c).map (fun p => shGroup p.2)).eraseDups
    let steps := gs.map (fun g => (g, groupStep (s.group (c / 4) g) t nrm tok))
    let groups : Tbl GroupStep := steps.foldl (fun l p => Tbl.set l p.1 p.2.1) []
    let recs : Tbl Ugrp := gs.foldl (fun l g => Tbl.set l g (s.group (c / 4) g)) []
    let clip := match steps.getLast? with
      | some p => p.2.2
      | none => one32
    s.setCtx c { cx with upd := { u with
      attempts := u.attempts + 1, unorm := BitVec.ofNat 64 nrm
      run := some { blank with skip := false, norm := BitVec.ofNat 64 nrm, c := clip, groups := groups, recs := recs } } }

/-- The group record that a step computes with: the one in force in lock cycle N_s (R245, R260 step 3). -/
def StepRun.record (r : StepRun) (g : Nat) : Ugrp := Tbl.get (List.replicate 1024 0#8) r.recs g
def StepRun.params (r : StepRun) (g : Nat) : GroupStep := Tbl.get { k := 0, lr := 0, dl := 0, bc1 := 0, bc2 := 0 } r.groups g

/-- The content that lines `lo` to `lo + n - 1` of shard entry `i` have, kept as that of the last C_s (R274). -/
def State.keepOld (s : State) (c i lo n : Nat) : State :=
  s.modCtx c (fun cx => { cx with upd := { cx.upd with run := cx.upd.run.map (fun r =>
    { r with old := r.old ++ (List.range n).map (fun k => (i, lo + k, s.holdLine (lo + k))) }) } })

/-- The Hold as it stood at the last C_s, in the lines of the context's shards (R274). -/
def State.committedView (s : State) (c : Nat) : State :=
  match (s.ctx c).upd.run with
  | some r => { s with hold := r.old.foldl (fun m p => m.writeLE (64 * p.2.1) 64 p.2.2.toNat) s.hold }
  | none => s

/-! ### Factor pass (R248, R258, R265) -/

/-- First line of factor block `b` of a shard; 0 is the header. -/
def factorLine (e : Ushd) (b : Nat) : Nat := shFbase e + 64 * b

def State.readF32 (s : State) (line i : Nat) : Nat := s.hold.readLE (64 * line + 4 * i) 4
def State.writeF32 (s : State) (line i x : Nat) : State := { s with hold := s.hold.writeLE (64 * line + 4 * i) 4 x }

/-- ROWST of a shard's row or COLST of its column. -/
def State.rowStat (s : State) (e : Ushd) (i : Nat) : Nat := s.readF32 (factorLine e (1 + i / 192)) (i % 192)
def State.colStat (s : State) (e : Ushd) (j : Nat) : Nat := s.readF32 (factorLine e (1 + rowBlocks e + j / 192)) (j % 192)
def State.sumStat (s : State) (e : Ushd) : Nat := s.readF32 (factorLine e 0) 0

/-- x ← fma32(BETA2, x, (1 − BETA2) × a), a = fma32(round32(n), EPS1, readout × kk) (R265). -/
def factorStat (g : Ugrp) (gs : GroupStep) (n x : Nat) (q : Win) (e : Int) : Nat :=
  let kk := mulE gs.k gs.k
  let a := fmaE (ofNat32 n) (grpEps1 g) (mulE (readPartial binary32 0 false q e).1 kk)
  fmaE (grpBeta2 g) x (mulE (oneMinus (grpBeta2 g)) a)

/-- The flags that an increment's LOW and HIGH set (R258). -/
def factorFlags (q : Win) : BitVec 9 := (if q.low then usFactorLow else 0) ||| (if q.high then usFactorHigh else 0)

/-- An increment as its readout leaves it: clamped, with HIGH where that changed it (R125). -/
def readIncrement (q : Win) (e : Int) : Win := (readPartial binary32 0 false q e).2.2

/-- One statistic and its increment at byte `inc`, updated in place. [DEDUCED: log 51] -/
def State.factorOne (s : State) (c line i inc n : Nat) (e : Ushd) (g : Ugrp) (gs : GroupStep) : State :=
  let q := winOfBits (s.hold.readLE inc 16)
  let x := s.readF32 line i
  let s := s.writeF32 line i (factorStat g gs n x q (shFexp e))
  let s := { s with hold := s.hold.writeLE inc 16 0 }
  s.modCtx c (fun cx => { cx with upd := cx.upd.flag (factorFlags (readIncrement q (shFexp e))) })

/-- A block left unchanged for poison or mixed stamps: STATE_POISON and the event (R268, R442). -/
def State.blockPoison (s : State) (c n b : Nat) : State :=
  let s := s.modCtx c (fun cx => { cx with upd := cx.upd.flag usStatePoison })
  s.postTenant (c / 4) 0x20 2 (s.ctx c).eventId (body [(24, 4, shTid (s.shard n)), (28, 2, n), (32, 8, b)])

/-- Has the release of lock `k` reached the HUUs of the context? -/
def Ctx.huuReached (cx : Ctx) (k : Nat) : Bool := cx.started && decide (k ≤ cx.huuIndex) && !(cx.huuHold && k == cx.index)

/-- FACTOR_PASS: factor block `b` (0 the header) of shard `n` is updated from its increments, which are then zero (R265). -/
def execFactorPass (n b err : Nat) (s : State) : Out :=
  let e := s.shard n
  if 16384 ≤ n then .fault .noSuchUnit
  else if !shValid e || !shFact e || decide (factorBlocks e ≤ b) then .next s
  else
    let c := s.shardCtx n
    let cx := s.ctx c
    match cx.sweeping with
    | none => .next s
    | some r =>
      if cx.upd.fpass && cx.huuReached r.lock && !r.factorDone.contains (n, b) then
        let line := factorLine e b
        let s := (s.checkLine line err).keepOld c n line 64
        let g := r.record (shGroup e)
        let gs := r.params (shGroup e)
        let s := if (List.range 64).any (fun i => s.linePoison (line + i)) then s.blockPoison c n b
          else if b = 0 then s.factorOne c line 0 (64 * line + 16) (shGrows e * shGcols e) e g gs
          else
            let isRow := decide (b ≤ rowBlocks e)
            let first := 192 * (if isRow then b - 1 else b - 1 - rowBlocks e)
            let total := if isRow then shRows e else shCols e
            let cnt := if isRow then shGcols e else shGrows e
            (List.range (min 192 (total - first))).foldl (fun s i =>
              s.factorOne c line i (64 * (line + 12) + 16 * i) cnt e g gs) s
        .next ((s.closeRead line 64).modCtx c (fun cx => { cx with upd := { cx.upd with run := cx.upd.run.map (fun r =>
          { r with factorDone := (n, b) :: r.factorDone }) } }))
      else .next s

/-! ### Update rules (R266, R267) -/

/-- A parameter after the rule: its new weight, moment and u (root of the second moment), binary32 encodings. -/
structure ParamOut where
  w : Nat
  m : Nat
  u : Nat
  v : Nat

/-- One parameter's update (R266); `v` is the factored second moment where the shard is factored. -/
def updateParam (g : Ugrp) (gs : GroupStep) (fact : Bool) (w ga mOld uOld vFact : Nat) : ParamOut :=
  let gr := mulE gs.k ga
  let w := fnmaE gs.dl w w
  let b1 := grpBeta1 g
  let b2 := grpBeta2 g
  match grpRule g with
  | 0 =>
    let m := fmaE b1 mOld gr
    let d := if grpNesterov g then fmaE b1 m gr else m
    { w := fnmaE gs.lr d w, m := m, u := 0, v := 0 }
  | 1 =>
    let m := fmaE b1 mOld (mulE (oneMinus b1) gr)
    let v := if fact then vFact else fmaE b2 (mulE uOld uOld) (mulE (oneMinus b2) (mulE gr gr))
    let u := if fact then 0 else sqrtE v
    let d := divE (mulE m gs.bc1) (addE (sqrtE (mulE v gs.bc2)) (grpEps g))
    { w := fnmaE gs.lr d w, m := m, u := u, v := v }
  | _ =>
    let e := fmaE b1 mOld (mulE (oneMinus b1) gr)
    let fe := f32 e
    let d := if fe.isNan || fe.isZero then e else if fe.sign then enc32 (.fin true 1 0, 0) else one32
    { w := fnmaE gs.lr d w, m := fmaE b2 mOld (mulE (oneMinus b2) gr), u := 0, v := 0 }

/-- A run of 32 moments stored as block-scaled E4M3: scale and codes. A non-finite moment stores the default NaN (R267, R268).
[DEDUCED: log 49] -/
def storeMoments (sr : Bool) (vs : List Nat) (us : List Nat) : Nat × List Nat :=
  let f := (fmtOf 0x5).getD binary32
  let xs := vs.map f32
  let (x, codes, _) := computedBlock f (if sr then 4 else 0) xs us
  (x, (xs.zip codes).map (fun p => if p.1.nonfinite then f.nanEnc else p.2))

/-- Stored moments of a block, decoded to binary32: elements from line `el`, scales from byte `sb` of line `sl`. -/
def State.moments (s : State) (base el sl sb p : Nat) : List Nat :=
  let f := (fmtOf 0x5).getD binary32
  (List.range p).map (fun i =>
    let x := s.hold.readLE (64 * (base + sl) + sb + i / 32) 1
    let v := decodeFmt f true (s.hold.readLE (64 * (base + el) + i) 1)
    round32 (if x = 0xFF then .nan false else v.scale ((x : Int) - 127)))

/-- Lines of a block's moments and trailer (R246): first line of the first moment, lines of moments and trailer, trailer line. -/
def momentLine (e : Ushd) : Nat := if shE e then 48 else 56
def trailerLine (e : Ushd) : Nat := if shE e then 60 else 63

/-- Row and column in the shard of parameter `p` of block `b`; none for padding (R247). -/
def paramAt (e : Ushd) (b p : Nat) : Option (Nat × Nat) :=
  let i := b * shP e + p
  if i < shN e then some (i / shCols e, i % shCols e) else none

/-- The global index of shard element (r, c) (R250). -/
def globalIndex (e : Ushd) (rc : Nat × Nat) : Nat := ((shGrow0 e + rc.1) * shGcols e + shGcol0 e + rc.2) % 2 ^ 64

/-- One term of the digest (R271). -/
def digestTerm (tid gi w : Nat) : Nat := mix64 ((mix64 (gi ^^^ (tid <<< 40 % 2 ^ 64)) + w) % 2 ^ 64)

/-- The digest of one block's master weights, modulo 2^64 (R271). [DEDUCED: log 50] -/
def State.blockDigest (s : State) (n b : Nat) : Nat :=
  let e := s.shard n
  (List.range (shP e)).foldl (fun d p =>
    match paramAt e b p with
    | none => d
    | some rc => (d + digestTerm (shTid e) (globalIndex e rc) (s.readF32 (shBbase e + 64 * b) p)) % 2 ^ 64) 0

/-- The digest of a whole shard (R271). -/
def State.shardDigest (s : State) (n : Nat) : Nat :=
  (List.range (shNblk (s.shard n))).foldl (fun d b => (d + s.blockDigest n b) % 2 ^ 64) 0

/-- Do the block's master and moment lines carry mixed stamps after a stack failure (R442)? [DEDUCED: log 46] -/
def State.mixedStamps (s : State) (n b : Nat) : Bool :=
  let e := s.shard n
  let base := shBbase e + 64 * b
  let lines := List.range (masterLines e) ++ (List.range 64).filter (fun i => decide (momentLine e ≤ i) && decide (i ≤ trailerLine e))
  let st := lines.map (fun i => (s.lineMeta (base + i)).stamp)
  !(s.quadrant (locate base).quadrant).failed.isEmpty && st.any (fun x => x ≠ st.headD 0)

/-- Writes a byte string over whole lines with a stamp. -/
def State.writeLines (s : State) (line n x : Nat) (stamp : Word) : State :=
  (List.range n).foldl (fun s i => s.writeLine (line + i) (BitVec.ofNat 512 (elemOf x 512 i)) stamp) s

/-- The computation and the writes of one block (R266 to R268). -/
def State.updateBlock (s : State) (c n b : Nat) (r : StepRun) : State :=
  let e := s.shard n
  let base := shBbase e + 64 * b
  let cx := s.ctx c
  let g := r.record (shGroup e)
  let gs := r.params (shGroup e)
  let p := shP e
  let ml := masterLines e
  let ms := s.moments base (momentLine e) (trailerLine e) 0 p
  let us := if shE e then s.moments base 54 60 12 p else List.replicate p 0
  let out := (List.range p).map (fun i =>
    match paramAt e b i with
    | none => ({ w := 0, m := 0, u := 0, v := 0 } : ParamOut)
    | some (ri, ci) =>
      let vf := if shFact e then divE (mulE (s.rowStat e ri) (s.colStat e ci)) (s.sumStat e) else 0
      updateParam g gs (shFact e) (s.readF32 base i) (s.readF32 (base + ml) i) (ms.getD i 0) (us.getD i 0) vf)
  let rnd (off i : Nat) : Nat :=
    match paramAt e b i with
    | none => 0
    | some rc => gen32 cx.huuK0.toNat cx.huuK1.toNat ((grpStream g + off + r.t % 2 ^ 16) % 2 ^ 32) 0 (globalIndex e rc)
  let store (f : ParamOut → Nat) (off : Nat) : List (Nat × List Nat) :=
    (runs32 ((out.map f).zip (List.range p))).map (fun l => storeMoments (grpMsr g) (l.map Prod.fst) (l.map (fun q => rnd off q.2)))
  let stamp := BitVec.ofNat 32 r.t
  let mst := store ParamOut.m 0
  let s := s.writeLines base ml (packElems 32 (out.map ParamOut.w)) stamp
  let s := s.writeLines (base + momentLine e) (p / 64) (packElems 8 (mst.flatMap Prod.snd)) stamp
  let s := if shE e then
      let ust := store ParamOut.u (2 ^ 16)
      let s := s.writeLines (base + 54) (p / 64) (packElems 8 (ust.flatMap Prod.snd)) stamp
      s.writeLines (base + 60) 1 (packElems 8 (mst.map Prod.fst ++ ust.map Prod.fst)) stamp
    else s.writeLines (base + 63) 1 (packElems 8 (mst.map Prod.fst)) stamp
  if out.any (fun q => (f32 q.w).nonfinite || (f32 q.m).nonfinite || (f32 q.v).nonfinite) then
    s.modCtx c (fun cx => { cx with upd := cx.upd.flag usNonfinite })
  else s

/-- Is every block of the context's shards on a stack that `on` picks processed, factor blocks by `factors`? -/
def State.workDone (s : State) (c : Nat) (r : StepRun) (on : Nat → Bool) (factors blocks : Bool) : Bool :=
  (s.shardsOf c).all (fun p =>
    (!factors || (List.range (factorBlocks p.2)).all (fun b => !on (stackOf (factorLine p.2 b)) || r.factorDone.contains (p.1, b))) &&
    (!blocks || (List.range (shNblk p.2)).all (fun b => !on (stackOf (shBbase p.2 + 64 * b)) || r.blocksDone.contains (p.1, b))))

/-- The step is applied: its number, its digests and the record registers advance (R260 step 6, R271). -/
def Update.commit (u : Update) (r : StepRun) : Update :=
  let lr := match r.groups.getLast? with
    | some p => p.2.lr
    | none => 0
  { u with ustep := r.t, committed := r.digests.foldl (fun l p => Tbl.set l p.1 p.2) u.committed
           ulast := BitVec.ofNat 64 (r.c + lr * 2 ^ 32), run := none }

/-- A domain that was aborted during its sweep ends once the sweep is complete (R350). -/
def State.endIfSwept (s : State) (c : Nat) : State :=
  let cx := s.ctx c
  match cx.upd.run with
  | some r =>
    if cx.aborting && s.workDone c r (fun _ => true) false true then
      (s.setCtx c { cx with upd := cx.upd.commit r }).enterAborted c
    else s
  | none => s

/-- UPDATE_BLOCK: the HUU of the block's stack reads, computes and writes block `b` of shard `n`; reads held on it may
then be answered (R261, R266 to R268, R442). -/
def execUpdateBlock (n b err : Nat) (s : State) : Out :=
  let e := s.shard n
  if 16384 ≤ n then .fault .noSuchUnit
  else if !shValid e || decide (shNblk e ≤ b) then .next s
  else
    let c := s.shardCtx n
    let cx := s.ctx c
    match cx.sweeping with
    | none => .next s
    | some r =>
      let ready := cx.huuReached (r.lock + (if cx.upd.fpass then 1 else 0)) &&
        (!cx.upd.fpass || s.workDone c r (fun _ => true) true false)
      if ready && !r.blocksDone.contains (n, b) then
        let base := shBbase e + 64 * b
        let s := s.checkLine base err
        let mixed := s.mixedStamps n b
        let poisoned := (List.range 64).any (fun i => s.linePoison (base + i))
        let s := if mixed then s.modStack (stackOf base) (fun k => { k with status := k.status ||| 8#4 }) else s
        let s := if poisoned || mixed then s.blockPoison c n b else (s.keepOld c n base 64).updateBlock c n b r
        let s := s.closeRead base 64
        let d := s.blockDigest n b
        let s := s.modCtx c (fun cx => { cx with upd := { cx.upd with run := cx.upd.run.map (fun r =>
          { r with blocksDone := (n, b) :: r.blocksDone
                   digests := Tbl.set r.digests n ((Tbl.get 0 r.digests n + d) % 2 ^ 64) }) } })
        .next (s.endIfSwept c)
      else .next s

/-! ### Arrival (R39, R244, R442) -/

/-- The unit that serves a stack's blocks: its own, or the next position's where the stack has failed (R442).
[DEDUCED: log 45] -/
def State.servingUnit (s : State) (k : Nat) : Nat :=
  ((List.range 8).map (fun i => 8 * (k / 8) + (k % 8 + i) % 8)).find? (fun j => !(s.stack j).failed) |>.getD k

/-- The HUU members of a context that can arrive. -/
def State.huuMembers (s : State) (c : Nat) : List Nat := ((s.ctx c).huus.map s.servingUnit).eraseDups

/-- The lock being gathered. -/
def Ctx.gathering (cx : Ctx) : Nat := if cx.started then cx.index + 1 else 0

/-- Is the work of HUU `h` scheduled to finish by lock `k` complete (R39, R259)? -/
def State.huuDone (s : State) (c h k : Nat) : Bool :=
  let cx := s.ctx c
  let on (x : Nat) : Bool := s.servingUnit x == h
  match cx.sweeping with
  | none => true
  | some r =>
    (!cx.upd.fpass || decide (k ≤ r.lock) || s.workDone c r on true false) &&
    (decide (k < cx.upd.sweepEnd r.lock) || s.workDone c r on false true)

/-- HUU_ARRIVAL: HUU `h` arrives at the lock being gathered when its work due by it is complete; `waited` says that its
work waited on DRAM (R39, R51). [DEDUCED: log 52] -/
def execHuuArrival (c h : Nat) (waited : Bool) (s : State) : Out :=
  if numCtxs ≤ c ∨ 32 ≤ h then .fault .noSuchUnit
  else
    let cx := s.ctx c
    let k := cx.gathering
    let released := !cx.huuHold
    if cx.state == .running && (s.huuMembers c).contains h && !cx.huuArrived.any (fun p => p.1 == h) && released
        && s.huuDone c h k then
      let seen := s.domainCauses cx
      let cause := if seen.getLsbD 5 then 5 else if seen.getLsbD 1 then 1 else if waited then 2 else 0
      .next (s.setCtx c { cx with
        huuArrived := cx.huuArrived ++ [(h, s.now, cause)]
        haltReq := cx.haltReq || cx.upd.haltWanted
        firstArrival := match cx.firstArrival with
          | some x => some x
          | none => some s.now })
    else .next s

end Sys2Proof.Machine
end

