-- ==== Sys2Proof/Machine/Stage.lean ====
section
/-! DEFINITION. Staged configuration sets: canonical encoding and digest (R65, R404), items and their checks (R64, R405),
what a commit applies (R66), the configuration string and its digest (R535), canal slot placement (R358). -/

namespace Sys2Proof.Machine

/-! ### Update registers (09, Domain update registers) -/

def Update.uctl (u : Update) : Nat := pack [(0, 16, u.digestN), (16, 1, b2n u.policyHalt), (17, 2, u.nslot), (19, 2, u.tslot)]
def Update.usched0 (u : Update) : Nat := u.n0 % 2 ^ 48
def Update.usched1 (u : Update) : Nat := pack [(0, 16, u.lstep), (16, 8, u.wsweep), (24, 1, b2n u.fpass)]

/-- UCTL written whole; its reserved bits read as zero. -/
def Update.setUctl (u : Update) (v : Nat) : Update :=
  { u with digestN := bits v 0 16, policyHalt := bit v 16, nslot := bits v 17 2, tslot := bits v 19 2 }

/-! ### The configuration digest (R535) -/

def Ctx.cargoExpBits (cx : Ctx) : Nat := pack ((List.range 4).map (fun n => (16 * n, 16, (cx.cargoExp.toList.getD n 0).toNat)))

/-- Bytes 0 to 63 of the configuration string. -/
def Ctx.configHead (cx : Ctx) : List Byte :=
  bytesLE 64 (packLE [(0, 1, b2n cx.elastic), (1, 1, b2n cx.cargoExact), (4, 4, cx.period % 2 ^ 30), (8, 8, cx.cargoExpBits),
    (16, 8, cx.k0.toNat), (24, 8, cx.k1.toNat), (32, 8, cx.upd.uctl), (40, 8, cx.upd.usched0), (48, 8, cx.upd.usched1),
    (56, 4, cx.imageValue), (60, 1, cx.version)])

/-- The CRC register over the 64 group records of a tenant, from `c`. -/
def State.groupsCrc (s : State) (ten c : Nat) : Nat := (List.range 64).foldl (fun c g => crcBytes c (s.group ten g)) c

/-- Imported shards carry different steps (R274). -/
def Update.importMixed (u : Update) : Bool := u.imported.any (fun p => p.2 != ((u.imported.head?).map Prod.snd).getD 0)

/-- The configuration digest of a context (R535); imported shards of differing steps show 0xFFFF_FFFF (R341). -/
def State.configDigest (s : State) (c : Nat) : Nat :=
  let cx := s.ctx c
  if cx.upd.importMixed then 0xFFFFFFFF
  else
    let d := s.groupsCrc (c / 4) (crcBytes 0xFFFFFFFF cx.configHead) ^^^ 0xFFFFFFFF
    if d = 0xFFFFFFFF then 0xFFFFFFFE else d

/-- The digest comes into force (R535). [DEDUCED: log 57] -/
def State.renewDigest (s : State) (c : Nat) : State := s.modCtx c (fun cx => { cx with digest := s.configDigest c })

/-! ### Canonical encoding (R404) and staged-set digest (R65) -/

/-- The items of a canonical encoding after its header, and the bytes left; none where it is not in the form. -/
def parseItems : Nat → Nat → List Byte → Option (List (Nat × List Byte) × List Byte)
  | 0, _, l => some ([], l)
  | n + 1, above, l =>
    let code := ofBytesLE (l.take 2)
    let len := ofBytesLE ((l.drop 2).take 2)
    let z := ofBytesLE ((l.drop 4).take 4)
    if l.length < 8 + len ∨ z ≠ 0 ∨ len % 8 ≠ 0 ∨ len < 8 ∨ 1024 < len ∨ code < above then none
    else (parseItems n (code + 1) (l.drop (8 + len))).map (fun r => ((code, (l.drop 8).take len) :: r.1, r.2))

/-- A staged set as the byte string of its command gives it: target, items, and the bytes after its end. -/
def parseSet (l : List Byte) : Option (Nat × List (Nat × List Byte) × List Byte) :=
  let t := ofBytesLE (l.take 8)
  let n := ofBytesLE ((l.drop 8).take 4)
  if l.length < 16 ∨ 2 ^ 48 ≤ t ∨ n = 0 ∨ 80 < n ∨ ofBytesLE ((l.drop 12).take 4) ≠ 0 then none
  else (parseItems n 0 (l.drop 16)).map (fun r => (t, r.1, r.2))

/-- CRC-32C over the encoding, a zero result replaced by one (R65). -/
def setDigest (encoding : List Byte) : Nat :=
  let d := crc32c encoding
  if d = 0 then 1 else d

/-! ### Item values -/

def itPeriod : Nat := 0x0001
def itMode : Nat := 0x0002
def itStretch : Nat := 0x0003
def itCargo : Nat := 0x0004
def itUctl : Nat := 0x0010
def itMonitor : Nat := 0x0200
def itScaling : Nat := 0x0201
def itPower : Nat := 0x0300
def itTrace : Nat := 0x0400
def itCanal : Nat := 0x0500
def itGrant : Nat := 0x0501
def itRegion : Nat := 0x0600

/-- Length that an item's value must have; none for an unknown code (R404, R405). -/
def itemLength (code : Nat) : Option Nat :=
  if code = 0x0001 ∨ code = 0x0002 ∨ code = 0x0003 ∨ code = 0x0010 ∨ code = 0x0500 then some 8
  else if code = 0x0004 ∨ code = 0x0300 ∨ code = 0x0600 then some 16
  else if 0x0100 ≤ code ∧ code < 0x0140 then some 1024
  else if code = 0x0200 ∨ code = 0x0201 then some 128
  else if code = 0x0400 ∨ code = 0x0501 then some 64
  else none

/-- Bytes of an item's value that are zero, as (offset, length): those that its layout does not name (R404, R405, R421, R426). -/
def itemZeros (code : Nat) : List (Nat × Nat) :=
  if code = itPeriod ∨ code = itStretch then [(4, 4)]
  else if code = itMode then [(1, 7)]
  else if code = itCargo then [(1, 1), (10, 6)]
  else if code = itMonitor then (0, 8) :: (List.range 16).flatMap (fun k => [(8 * k + 1, 1), (8 * k + 4, 4)])
  else if code = itScaling then (0, 8) :: (List.range 16).map (fun k => (8 * k + 3, 5))
  else if code = itPower then [(8, 8)]
  else if code = itTrace then [(21, 3), (32, 32)]
  else if code = itCanal then [(2, 6)]
  else if code = itGrant then (56, 8) :: (List.range 6).map (fun i => (14 + 8 * i, 2))
  else if code = itRegion then [(4, 3), (11, 5)]
  else []

/-- Is a reserved byte of an item's value nonzero? -/
def itemReserved (code : Nat) (val : List Byte) : Bool :=
  itemLength code == some val.length && (itemZeros code).any (fun p => ofBytesLE ((val.drop p.1).take p.2) != 0)

/-- An item's value as a number, if the set holds the item. -/
def itemOf (items : List (Nat × List Byte)) (code : Nat) : Option Nat := (items.find? (fun p => p.1 == code)).map (fun p => ofBytesLE p.2)

/-- Entry `k` of a monitor item (R421). -/
def monEntry (v k : Nat) : Nat := elemOf v 64 k

/-! ### Canal slots (R358) -/

/-- Slots of a frame that are neither the provider's nor another tenant's. -/
def idleSlots (taken : List Nat) : List Nat := (List.range 512).filter (fun i => decide (i % 32 ≠ 0) && !taken.contains i)

/-- The base set of share `n` among idle slots, at the lowest offset that serves. -/
def baseSet (idle : List Nat) (n : Nat) : Option (List Nat) :=
  let w := 512 / 2 ^ log2 n
  let at_ (o : Nat) : List Nat := (List.range (512 / w)).map (fun i => o + i * w)
  ((List.range w).find? (fun o => (at_ o).all idle.contains)).map at_

/-- The slot numbers of share `n`; none where no placement exists. -/
def placeCanal (taken : List Nat) (n : Nat) : Option (List Nat) :=
  if n = 0 then some []
  else
    let idle := idleSlots taken
    (baseSet idle n).bind (fun base =>
      let more := (idle.filter (fun i => !base.contains i)).take (n - 2 ^ log2 n)
      if more.length = n - 2 ^ log2 n then some (base ++ more) else none)

/-- Slots taken by the tenants other than `n`. -/
def State.canalTaken (s : State) (n : Nat) : List Nat := (s.tenants.filter (fun p => p.1 ≠ n)).flatMap (fun p => p.2.canalSlots)

/-! ### Hold access slots (R226, R358) -/

/-- Accesses per stack of canal share n (R358). -/
def accessShare (n : Nat) : Nat := 175 * n / 16

/-- The first access slot of a frame that a tenant may own: 800 are reserved and 175 the provider's (R226).
[DESIGN CHOICE: log 167] -/
def firstAccess : Nat := 975

/-- The idle runs (first, count) of a frame's 6,400 access slots from `lo` on, among taken runs in ascending order. -/
def idleRuns (lo : Nat) : Tbl Nat → List (Nat × Nat)
  | [] => [(lo, 6400 - lo)]
  | (a, n) :: r => (lo, a - lo) :: idleRuns (max lo (a + n)) r

/-- The lowest `n` slots of a list of runs. -/
def takeRuns : Nat → List (Nat × Nat) → List (Nat × Nat)
  | 0, _ => []
  | _, [] => []
  | n + 1, (a, k) :: r => if k = 0 then takeRuns (n + 1) r else (a, min (n + 1) k) :: takeRuns (n + 1 - k) r

/-- Runs of access slots taken by the tenants other than `n`; every stack's schedule is the same. -/
def State.accessTaken (s : State) (n : Nat) : Tbl Nat :=
  (s.tenants.filter (fun p => p.1 ≠ n)).foldl (fun t p => p.2.accessSlots.foldl (fun t r => t.set r.1 r.2) t) []

/-- The access slots of canal share `n`, idle ones in ascending order; none where too few are idle (R358). -/
def placeAccess (taken : Tbl Nat) (n : Nat) : Option (List (Nat × Nat)) :=
  let l := takeRuns (accessShare n) (idleRuns firstAccess taken)
  if (l.map Prod.snd).sum = accessShare n then some l else none

/-- Canal slots and access slots of a tenant's share `n`; none where one of them cannot be placed (R358). -/
def State.placeShare (s : State) (ten n : Nat) : Option (List Nat × List (Nat × Nat)) :=
  (placeCanal (s.canalTaken ten) n).bind (fun l => (placeAccess (s.accessTaken ten) n).map (fun a => (l, a)))

/-- The tenant in whose schedule an access slot of every stack stands: written at step 4 of its set-up (R361). -/
def State.accessOwner (s : State) (slot : Nat) : Option Nat :=
  (s.tenants.find? (fun p => p.2.st != .settingUp && p.2.accessSlots.any (fun r => decide (r.1 ≤ slot) && decide (slot < r.1 + r.2)))).map Prod.fst

/-- The canal share of a tenant becomes `n`, with its canal and access slots placed (R358). -/
def State.setCanal (s : State) (ten n : Nat) : State :=
  match s.placeShare ten n with
  | some (l, a) => s.modTenant ten (fun t => { t with canal := n, canalSlots := l, accessSlots := a })
  | none => s

/-! ### Region and window (item 0x0600) -/

/-- The virtual grid's granule rows in the ordered grade's terms (R7): 16 on LW2-X, 14 on LW2-S. -/
def State.gridRows (s : State) : Nat := s.spareRow

/-- The region and window that an item of code 0x0600 names (R405). -/
def Tenant.moved (t : Tenant) (v : Nat) : Tenant :=
  { t with ox := fieldLE v 0 1, oy := fieldLE v 1 1, width := fieldLE v 2 1, height := fieldLE v 3 1
           baseGib := fieldLE v 7 2, sizeGib := fieldLE v 9 2 }

/-- Do two windows share a line? -/
def Tenant.clash (a b : Tenant) : Bool :=
  decide (0 < a.sizeGib) && decide (0 < b.sizeGib) && decide (a.baseGib < b.baseGib + b.sizeGib) && decide (b.baseGib < a.baseGib + a.sizeGib)

/-- Can a tenant have region and window `t`: every granule CLEAN or its own, and the window apart from all others (R356, R224)? -/
def State.regionFree (s : State) (ten : Nat) (t : Tenant) : Bool :=
  t.grans.all (fun g => s.gran (s.physGran g) == .clean || s.gran (s.physGran g) == .owned ten) &&
    s.tenants.all (fun p => p.1 == ten || !p.2.clash t)

/-- The region and window of a tenant change, where they are still free: granules that leave are scrubbed, those that come are the
tenant's, every open mask of the region is written, SUBST counts the substituted granules of the new region, and lines that the
tenant did not hold are zero-filled under its keys before they are handed to it (R203, R233, R355, R356).
[DESIGN CHOICE: log 166] -/
def State.setRegion (s : State) (ten v : Nat) : State :=
  let t := s.tenant ten
  let t' := t.moved v
  if !s.regionFree ten t' then s
  else
    let phys (l : List Nat) := l.map s.physGran
    let s := s.scrubGrans ten (phys (t.grans.filter (fun g => !t'.grans.contains g)))
    let s := (phys t'.grans).foldl (fun s p => { s with granules := s.granules.set p (.owned ten) }) s
    let s := s.setTenant ten { t' with subst := (t'.grans.filter (fun g => (s.subst.find g).isSome)).length }
    let lo := t.baseGib * 2 ^ 24
    let hi := (t.baseGib + t.sizeGib) * 2 ^ 24
    let lo' := t'.baseGib * 2 ^ 24
    let hi' := (t'.baseGib + t'.sizeGib) * 2 ^ 24
    let s := (s.zeroFill lo' (min hi' (max lo lo'))).zeroFill (max lo' (min hi hi')) hi'
    (s.placeRegion ten).groupsOn

/-! ### What an item applies -/

/-- Physical granules that hold tiles of a context. -/
def State.gransOf (s : State) (c : Nat) : List Nat := ((s.tilesOf c).map granOf).eraseDups

/-- Clears a monitor slot in every unit of a domain's region. -/
def State.clearMon (s : State) (c k : Nat) : State :=
  (s.gransOf c).foldl (fun s g => { s with mons := s.mons.del (16 * g + k) }) s

/-- The numerics-monitor selection (R420, R421). -/
def State.applyMonitor (s : State) (c v : Nat) : State :=
  let en := BitVec.ofNat 16 (pack ((List.range 16).map (fun k => (k, 1, if k = 0 then 0 else bits (monEntry v k) 0 1))))
  let s := (List.range 15).foldl (fun s i =>
    let k := i + 1
    let b := sext (bits (monEntry v k) 16 16) 16
    let s := if Tbl.get 0 (s.ctx c).monBase k = b then s else s.clearMon c k
    s.modCtx c (fun cx => { cx with monBase := Tbl.put 0 cx.monBase k b })) s
  s.modTilesOf c (fun t => { t with tapEn := en })

/-- Delayed scaling (R421). -/
def State.applyScaling (s : State) (c v : Nat) : State :=
  let en := BitVec.ofNat 16 (pack ((List.range 16).map (fun k => (k, 1, if k = 0 then 0 else bits (monEntry v k) 0 1))))
  let s := (List.range 15).foldl (fun s i =>
    let k := i + 1
    s.modCtx c (fun cx => { cx with dsEmax := Tbl.put 0 cx.dsEmax k (bits (monEntry v k) 8 8)
                                    dsMargin := Tbl.put 0 cx.dsMargin k (sext (bits (monEntry v k) 16 8) 8) })) s
  s.modTilesOf c (fun t => { t with dsEn := en })

/-- The slot shares of a domain's grant and its tree position, from the grant record's bytes 16 to 79. -/
def grantOfBytes (v : Nat) : Grant :=
  { domainId := fieldLE v 0 2, tenant := fieldLE v 2 1, relay := bit (fieldLE v 3 1) 0, root := bit (fieldLE v 3 1) 7
    parent := fieldLE v 4 1, children := BitVec.ofNat 6 (fieldLE v 5 1), backup := fieldLE v 6 1, k := fieldLE v 7 1
    trunks := (List.range 6).map (fun i => (fieldLE v (8 + 8 * i) 2, fieldLE v (10 + 8 * i) 2, fieldLE v (12 + 8 * i) 2))
    raw := v }

/-! ### Slot tables of the fabric ports (R323, R326, R341) -/

/-- Is a frame slot a system slot? -/
def sysSlot (i : Nat) : Bool := decide (i % 32 ≤ 1) || i % 32 == 16

/-- The lowest `m` idle owner slots of a table. -/
def idleOwner (t : Tbl (BitVec 32)) (m : Nat) : List Nat :=
  ((List.range 512).filter (fun i => !sysSlot i && (t.find i).isNone)).take m

/-- The first marker-pair phase j0 whose pairs are free for pair count k. -/
def idlePairs (t : Tbl DWord) (k : Nat) : Option (List Nat) :=
  let at_ (j0 : Nat) : List Nat := (List.range k).map (fun i => j0 + i * (16 / k))
  ((List.range (16 / k)).find? (fun j0 => (at_ j0).all (fun j => (t.find j).isNone))).map at_

/-- Gives an owner `m` slots in both directions of a port. -/
def GPort.giveSlots (p : GPort) (id m : Nat) : GPort :=
  let e : BitVec 32 := BitVec.ofNat 32 (id + 2 ^ 16)
  { p with fsltTx := (idleOwner p.fsltTx m).foldl (fun t i => Tbl.set t i e) p.fsltTx
           fsltRx := (idleOwner p.fsltRx m).foldl (fun t i => Tbl.set t i e) p.fsltRx }

/-- Gives a domain `k` marker pairs in both directions of a port. [DEDUCED: log 63] -/
def GPort.givePairs (p : GPort) (id k : Nat) : GPort :=
  let v : DWord := BitVec.ofNat 64 (id + 2 ^ 16)
  match idlePairs p.gmptTx k, idlePairs p.gmptRx k with
  | some a, some b => { p with gmptTx := a.foldl (fun t j => Tbl.set t j v) p.gmptTx
                               gmptRx := b.foldl (fun t j => Tbl.set t j v) p.gmptRx }
  | _, _ => p

/-- Takes an owner's slots and pairs out of a port's tables. -/
def GPort.dropOwner (p : GPort) (id : Nat) : GPort :=
  { p with fsltTx := p.fsltTx.filter (fun e => bits e.2.toNat 0 16 ≠ id), fsltRx := p.fsltRx.filter (fun e => bits e.2.toNat 0 16 ≠ id)
           gmptTx := p.gmptTx.filter (fun e => bits e.2.toNat 0 16 ≠ id), gmptRx := p.gmptRx.filter (fun e => bits e.2.toNat 0 16 ≠ id)
           queues := p.queues.del id, creditUsed := p.creditUsed.del id, freed := p.freed.del id }

/-- The tree edges of a grant: parent, children and backup. -/
def Grant.edges (g : Grant) : List Nat :=
  (List.range 6).filter (fun t => g.parent == t || g.children.getLsbD t || g.backup == t)

/-- Ports of a trunk. -/
def trunkPorts (t : Nat) : List Nat := (List.range 8).map (fun i => 8 * t + i)

/-- Slots, marker pairs and tree position of a grant are written, replacing an earlier grant of the domain (R341). -/
def State.applyGrant (s : State) (g : Grant) : State :=
  let s := (List.range 48).foldl (fun s p => if ((s.ports.find p).isSome) then s.modPort p (fun q => q.dropOwner g.domainId) else s) s
  let s := (List.range 6).foldl (fun s t =>
    let m := (g.trunks.getD t (0, 0, 0)).1
    if m = 0 then s else (trunkPorts t).foldl (fun s p => s.modPort p (fun q => q.giveSlots g.domainId m)) s) s
  let s := g.edges.foldl (fun s t => s.modPort (8 * t) (fun q => q.givePairs g.domainId g.k)) s
  { s with fabric := { s.fabric with grants := s.fabric.grants.set g.domainId g } }

/-- One item comes into force (R66, R405). [DEDUCED: log 71] -/
def State.applyItem (s : State) (c code : Nat) (val : List Byte) : State :=
  let v := ofBytesLE val
  if code = itPeriod then s.modCtx c (fun cx => { cx with period := fieldLE v 0 4 })
  else if code = itMode then 
    let s := s.modCtx c (fun cx => { cx with elastic := decide (fieldLE v 0 1 ≠ 0) })
    if fieldLE v 0 1 ≠ 0 then s.measureRegion (c / 4) else s
  else if code = itStretch then s.modCtx c (fun cx => { cx with stretchLimit := fieldLE v 0 4 })
  else if code = itCargo then s.modCtx c (fun cx => { cx with
    cargoExact := decide (fieldLE v 0 1 ≠ 0), cargoExp := Vector.ofFn (fun n => BitVec.ofNat 16 (fieldLE v (2 + 2 * n.val) 2)) })
  else if code = itUctl then s.modCtx c (fun cx => { cx with upd := cx.upd.setUctl v })
  else if 0x0100 ≤ code ∧ code < 0x0140 then { s with ugrp := s.ugrp.set (64 * (c / 4) + (code - 0x0100)) val }
  else if code = itMonitor then s.applyMonitor c v
  else if code = itScaling then s.applyScaling c v
  else if code = itPower then s.modCtx c (fun cx => { cx with powerShare := fieldLE v 0 4, lendThreshold := fieldLE v 4 4 })
  else if code = itTrace then s.modCtx c (fun cx => { cx with
    trace := some (BitVec.ofNat 512 v), traceOn := false, traceAt := none, tracePos := 0, traceDropped := 0 })
  else if code = itCanal then s.setCanal (c / 4) (fieldLE v 0 2)
  else if code = itGrant then s.applyGrant (grantOfBytes v)
  else if code = itRegion then s.setRegion (c / 4) v
  else s

/-- A whole set comes into force, and with it the new epoch and digest (R66, R67). -/
def State.applySet (s : State) (c : Nat) (g : Staged) (epoch : Bool) : State :=
  let s := g.items.foldl (fun s p => s.applyItem c p.1 p.2) s
  let s := s.modCtx c (fun cx => { cx with
    staged := none, epoch := if epoch then (cx.epoch + 1) % 2 ^ 16 else cx.epoch })
  s.renewDigest c

/-- The data of a completed DOMAIN_STAGE: the lock of its commit and the set's digest. -/
def stageResult (lock digest : Nat) : Nat := packLE [(0, 6, lock), (8, 4, digest)]

/-- A staged set commits with lock `k` (R66, R67, R69). -/
def State.commitStaged (s : State) (c k : Nat) (g : Staged) : State :=
  let s := s.applySet c g true
  let s := s.settle g.fn g.slot stOK 0 (if g.lateMode then 2 else 0) 12 (stageResult k g.digest)
  if g.lateMode then (s.modCtx c (fun cx => { cx with lateCommit := true })).domainEvent c 6 0 else s

/-- A staged set is discarded as a mismatch (R66). -/
def State.dropStaged (s : State) (c : Nat) : State :=
  let cx := s.ctx c
  let s := match cx.staged with
    | some g => s.settle g.fn g.slot stMismatch 0 0 12 (stageResult 0 g.digest)
    | none => s
  (s.modCtx c (fun cx => { cx with staged := none, configMismatch := true })).domainEvent c 4 0

/-! ### Checks of a set (R64) -/

/-- Does an item require quiescence (R405)? -/
def needsQuiesce (cx : Ctx) (code : Nat) (val : List Byte) : Bool :=
  (code == itMode && cx.elastic && val.headD 0 == 0#8) || code == itCanal || code == itGrant || code == itRegion

/-- A binary32 encoding of a number at least zero: not a NaN, −0 counts as 0, +∞ belongs to it. -/
def nonneg32 (x : Nat) : Bool := !(f32 x).isNan && (!(f32 x).sign || (f32 x).isZero)
/-- A binary32 encoding that is finite and at least zero. -/
def finite32 (x : Nat) : Bool := nonneg32 x && !(f32 x).nonfinite
/-- A binary32 encoding above zero. -/
def pos32 (x : Nat) : Bool := nonneg32 x && !(f32 x).isZero
/-- A binary32 encoding in [0, 1). -/
def unit32 (x : Nat) : Bool := finite32 x && fvLt (f32 x) (.fin false 1 0)

/-- Is the group record's content within its limits (R251)? -/
def groupOk (g : List Byte) : Bool :=
  let rule := grpRule g
  let flags := grpField g 1 1
  let n := grpNpts g
  decide (rule ≤ 2) && decide (flags < 8) && (rule == 0 || !grpNesterov g) && decide (grpSched g ≤ 3) &&
  (if grpSched g = 3 then decide (1 ≤ n) && decide (n ≤ 64) else n == 0) &&
  finite32 (grpPeak g) && finite32 (grpFinal g) && (grpSched g == 0 || grpSched g == 3 || decide (1 ≤ grpDecay g)) &&
  unit32 (grpBeta1 g) && unit32 (grpBeta2 g) && (rule != 1 || pos32 (grpEps g)) && nonneg32 (grpEps1 g) &&
  nonneg32 (grpWd g) && (!grpClip g || pos32 (grpTau g)) && grpField g 48 16 == 0 && grpField g 576 448 == 0 &&
  (List.range n).all (fun k => finite32 (grpPtLr g k) && (k == 0 || decide (grpPtStep g (k - 1) < grpPtStep g k)))

/-- P_PROVED or the running level's bound, and O (R45, R64): least period of a domain. -/
def Ctx.leastPeriod (cx : Ctx) : Nat := max (max 250 cx.overhead) cx.pProved

/-- The sum of the power parts of the tenant's other domains. -/
def State.otherShares (s : State) (c : Nat) : Nat :=
  ((List.range 4).map (fun i => if 4 * (c / 4) + i = c then 0 else (s.ctx (4 * (c / 4) + i)).powerShare)).sum

/-- Does an item's value meet its constraint? -/
def State.itemOk (s : State) (c : Nat) (items : List (Nat × List Byte)) (code : Nat) (val : List Byte) : Bool :=
  let v := ofBytesLE val
  let cx := s.ctx c
  let ten := s.tenant (c / 4)
  if itemLength code ≠ some val.length ∨ itemReserved code val then false
  else if code = itPeriod then
    decide (cx.leastPeriod ≤ fieldLE v 0 4) && decide (fieldLE v 0 4 ≤ 1000000000)
  else if code = itMode then decide (fieldLE v 0 1 ≤ 1)
  else if code = itStretch then decide (1 ≤ fieldLE v 0 4) && decide (fieldLE v 0 4 ≤ 67108863)
  else if code = itCargo then decide (fieldLE v 0 1 ≤ 1)
  else if code = itUctl then bits v 17 2 != bits v 19 2
  else if 0x0100 ≤ code ∧ code < 0x0140 then groupOk val
  else if code = itMonitor then (List.range 16).all (fun k => decide (fieldLE (monEntry v k) 0 1 ≤ 1))
  else if code = itScaling then
    let tap := (s.tilesOf c).head?.map (fun t => (s.tile t).tapEn.toNat)
    let enabled (k : Nat) : Bool := match itemOf items itMonitor with
      | some m => bit (monEntry m k) 0
      | none => bit (tap.getD 0) k
    (List.range 16).all (fun k =>
      let e := monEntry v k
      decide (fieldLE e 0 1 ≤ 1) && decide (fieldLE e 1 1 ≤ 15) &&
        (fieldLE e 0 1 == 0 || (enabled k && cx.upd.lstep != 0)))
  else if code = itPower then
    decide (fieldLE v 0 4 + s.otherShares c ≤ ten.power) &&
      (fieldLE v 4 4 == 0 || (decide (250 ≤ fieldLE v 4 4) && decide (fieldLE v 4 4 ≤ 1000000)))
  else if code = itTrace then
    decide (fieldLE v 20 1 ≤ 1) && decide (0 < fieldLE v 8 8) &&
      decide (fieldLE v 0 8 + fieldLE v 8 8 ≤ ten.sizeGib * 2 ^ 24)
  else if code = itCanal then
    decide (1 ≤ fieldLE v 0 2) && decide (fieldLE v 0 2 ≤ 496) && (s.placeShare (c / 4) (fieldLE v 0 2)).isSome
  else if code = itGrant then
    let g := grantOfBytes v
    g.domainId == cx.domainId && g.tenant == c / 4 && [1, 2, 4, 8, 16].contains g.k &&
      bits (fieldLE v 3 1) 1 6 == 0 && bits (fieldLE v 5 1) 6 2 == 0
  else if code = itRegion then
    let t' := ten.moved v
    decide (1 ≤ t'.width) && decide (1 ≤ t'.height) && decide (t'.ox + t'.width ≤ 32) &&
      decide (t'.oy + t'.height ≤ s.gridRows) && decide (1 ≤ t'.sizeGib) && decide (t'.baseGib + t'.sizeGib ≤ 1792 - s.reserveGib) &&
      s.regionFree (c / 4) t'
  else false

/-- The status that refuses a set, in the order of R64; none where it is accepted. -/
def State.stageStatus (s : State) (c : Nat) (items : List (Nat × List Byte)) : Option Nat :=
  let cx := s.ctx c
  if cx.elasticPin && items.any (fun p => p.1 == itMode && p.2.headD 0 == 0#8) then some stDenied
  else if cx.state = .aborted then some stDenied
  else if cx.state.live && items.any (fun p => needsQuiesce cx p.1 p.2) then some stNeedsQuiesce
  else if !items.all (fun p => s.itemOk c items p.1 p.2) then some stDenied
  else if cx.staged.isSome then some stBusy
  else none

end Sys2Proof.Machine
end

