-- ==== Sys2Proof/Machine/Link.lean ====
section
/-! DEFINITION. Units, markers and LINK messages of the fabric (12_multi_device.md): layouts, trunks, and the queues in
which they wait for a slot. -/

namespace Sys2Proof.Machine

/-! ### Unit kinds and LINK subtypes (R316, R318) -/

def kDATA : Nat := 0x1
def kMarkerA : Nat := 0x2
def kMarkerB : Nat := 0x3
def kLINK : Nat := 0x4
def kBMSG : Nat := 0x5
def kBDATA : Nat := 0x6
def kBRP : Nat := 0x7
def kBrpPoison : Nat := 0x8
def kDataPoison : Nat := 0x9
def kSECTEND : Nat := 0xA

def lHELLO : Nat := 0x001
def lCREDIT : Nat := 0x002
def lFORM : Nat := 0x003
def lFORMED : Nat := 0x004
def lDIGEST : Nat := 0x005
def lMemberLost : Nat := 0x007
def lReplayHold : Nat := 0x008
def lReplayMark : Nat := 0x009
def lPortMove : Nat := 0x00A

/-- A LINK unit of a subtype with a body from fields (byte, length, value). -/
def linkUnit (sub : Nat) (l : List (Nat × Nat × Nat)) : LinkUnit := { kind := kLINK, index := sub, body := BitVec.ofNat 512 (packLE l) }

/-! ### Trunks and trees (R337, R340, R341) -/

/-- The trunk of a port; 6 stands for the Basin ports. -/
def trunkOf (p : Nat) : Nat := if p < 48 then p / 8 else 6

/-- The live port of lowest index of a trunk. -/
def State.trunkPort (s : State) (t : Nat) : Option Nat :=
  (if t < 6 then trunkPorts t else (List.range 8).map (fun i => 48 + i)).find? (fun p => (s.port p).state == .up)

/-- The context that stands for a domain of which this device is a relay only (the model's own numbering). [DEDUCED: log 59] -/
def relayCtx (id : Nat) : Nat := numCtxs + id

/-- The identifier in the markers between a device and its Basin of a domain without a grant (the model's own numbering).
[DESIGN CHOICE: log 172] -/
def soloDomain (c : Nat) : Nat := 0xF000 + c

/-- The context of a domain identifier on this device. -/
def State.ctxOfDomain (s : State) (id : Nat) : Option Nat :=
  match s.ctxs.find? (fun p => decide (p.1 < numCtxs) && p.2.loaded &&
      ((p.2.spans && p.2.domainId == id) || (!p.2.spans && p.2.basinMember && soloDomain p.1 == id))) with
  | some p => some p.1
  | none => if ((s.fabric.grants.find id).map Grant.relay).getD false then some (relayCtx id) else none

/-- The domain identifier of a context, or of the domain that a relay's context stands for. -/
def State.domainOf (s : State) (c : Nat) : Nat :=
  if numCtxs ≤ c then c - numCtxs else if (s.ctx c).spans then (s.ctx c).domainId else soloDomain c

/-- Does the context's domain span devices? A relay's always does. -/
def State.spansOf (s : State) (c : Nat) : Bool := decide (numCtxs ≤ c) || (s.ctx c).spans

/-- The grant of a context whose domain spans devices, or of a relay's. -/
def State.grantOf (s : State) (c : Nat) : Option Grant := if s.spansOf c then s.fabric.grants.find (s.domainOf c) else none

/-- Is this device the root of the context's domain? -/
def State.isRoot (s : State) (c : Nat) : Bool := !s.spansOf c || ((s.grantOf c).map Grant.root).getD false

/-- Trunks to the children of the context's domain: child devices, and 6 for a Basin that is a member (R243).
[DEDUCED: log 60] -/
def State.childTrunks (s : State) (c : Nat) : List Nat :=
  (if s.spansOf c then
    match s.grantOf c with
    | some g => (List.range 6).filter (fun t => g.children.getLsbD t)
    | none => []
   else []) ++ (if (s.ctx c).basinMember then [6] else [])

/-- The trunk toward the parent, none at the root. -/
def State.parentTrunk (s : State) (c : Nat) : Option Nat :=
  if s.isRoot c then none else (s.grantOf c).map Grant.parent

/-- A domain with a member Basin owns marker pairs on every Basin port: as many as on its tree edges, one without a grant (R243,
R331). [DESIGN CHOICE: log 172] -/
def State.basinPairs (s : State) (c : Nat) : State :=
  if (s.ctx c).basinMember then
    let k := ((s.grantOf c).map Grant.k).getD 1
    (List.range 8).foldl (fun s i => s.modPort (48 + i) (fun q => q.givePairs (s.domainOf c) k)) s
  else s

/-- A domain's marker pairs on the Basin ports are idle again. -/
def State.freePairs (s : State) (c : Nat) : State :=
  if (s.ctx c).basinMember then
    (List.range 8).foldl (fun s i => if (s.ports.find (48 + i)).isSome then s.modPort (48 + i) (fun q => { q with
      gmptTx := q.gmptTx.filter (fun e => bits e.2.toNat 0 16 ≠ s.domainOf c)
      gmptRx := q.gmptRx.filter (fun e => bits e.2.toNat 0 16 ≠ s.domainOf c) }) else s) s
  else s

/-! ### Queues -/

/-- Queues a LINK unit to the partner of a trunk. -/
def State.sendLink (s : State) (t : Nat) (u : LinkUnit) : State :=
  { s with fabric := { s.fabric with links := s.fabric.links.set t (Tbl.get [] s.fabric.links t ++ [u]) } }

/-- Queues a marker pair of a domain on a trunk. -/
def State.sendMarker (s : State) (t id : Nat) (ab : LinkUnit × LinkUnit) : State :=
  let k := 65536 * t + id
  { s with fabric := { s.fabric with markers := s.fabric.markers.set k (Tbl.get [] s.fabric.markers k ++ [ab]) } }

/-- Queues a unit of a domain in an owner's queue of a port. -/
def State.sendOwned (s : State) (p owner : Nat) (u : LinkUnit) : State :=
  s.modPort p (fun q => { q with queues := q.queues.set owner (Tbl.get [] q.queues owner ++ [u]) })

/-! ### Marker layouts (R331) -/

/-- MARKER_A. -/
def markerA (id index time mflags control epoch cdig sdig starget cargost flags src : Nat) : LinkUnit :=
  { kind := kMarkerA, index := 0
    body := BitVec.ofNat 512 (packLE [(0, 2, id), (2, 6, index), (8, 8, time), (16, 1, mflags), (17, 1, control), (18, 2, epoch),
      (20, 4, cdig), (24, 4, sdig), (28, 6, starget), (34, 2, cargost), (36, 4, flags), (40, 2, src)]) }

/-- MARKER_B: four slots of `w` bytes. -/
def markerB (w : Nat) (slots : List Nat) : LinkUnit :=
  { kind := kMarkerB, index := 0
    body := BitVec.ofNat 512 (packLE ((List.range 4).map (fun n => (w * n, w, slots.getD n 0)))) }

/-- A gather marker pair; on links of version 1.x no staged fields and no exact cargo. -/
def encGather (id src : Nat) (exact v2 : Bool) (m : GatherMarker) : LinkUnit × LinkUnit :=
  (markerA id m.index m.latest
    (pack [(0, 1, 0), (1, 3, m.cause), (4, 2, if v2 then m.stagedState else 0), (6, 1, b2n exact), (7, 1, b2n m.mismatch)])
    (pack [(0, 1, b2n m.halt), (1, 1, b2n m.abort)]) m.epoch m.digest (if v2 then m.stagedDigest else 0)
    (if v2 then m.stagedTarget else 0) (pack [(0, 4, m.presence.toNat), (4, 12, m.status.toNat)]) m.flags.toNat src,
   markerB (if exact then 16 else 8) (m.cargo.toList.map BitVec.toNat))

/-- A gather marker as received on trunk `t`. -/
def decGather (t : Nat) (a b : Line) : GatherMarker :=
  let x := a.toNat
  let mf := fieldLE x 16 1
  let w := if bit mf 6 then 16 else 8
  { trunk := t, device := bits (fieldLE x 40 2) 0 14, index := fieldLE x 2 6, latest := fieldLE x 8 8, cause := bits mf 1 3
    epoch := fieldLE x 18 2, digest := fieldLE x 20 4, mismatch := bit mf 7, stagedDigest := fieldLE x 24 4
    stagedTarget := fieldLE x 28 6, stagedState := bits mf 4 2, halt := bit (fieldLE x 17 1) 0, abort := bit (fieldLE x 17 1) 1
    flags := BitVec.ofNat 32 (fieldLE x 36 4), presence := BitVec.ofNat 4 (fieldLE x 34 2)
    status := BitVec.ofNat 12 (fieldLE x 34 2 / 16)
    cargo := Vector.ofFn (fun n => BitVec.ofNat 128 (fieldLE b.toNat (w * n.val) w)), exact := bit mf 6 }

/-- A release marker pair: final sums in binary64 (R56); the staged-state field shows conflicting where the set is discarded.
[DEDUCED: log 56] -/
def encRelease (id src : Nat) (r : Release) : LinkUnit × LinkUnit :=
  (markerA id r.index r.fire (pack [(0, 1, 1), (1, 3, r.cause), (4, 2, if r.drop then 3 else 0), (7, 1, b2n r.mismatch)])
    (pack [(0, 1, b2n r.halt), (1, 1, b2n r.abort), (2, 1, b2n r.armed), (3, 1, b2n r.commit)]) r.epoch r.digest
    r.stagedDigest r.stagedTarget (pack [(0, 4, r.presence.toNat), (4, 12, r.status.toNat)]) r.flags.toNat src,
   markerB 8 (r.cargo.toList.map BitVec.toNat))

/-- A release marker as received. -/
def decRelease (a b : Line) : Release :=
  let x := a.toNat
  let mf := fieldLE x 16 1
  let ct := fieldLE x 17 1
  { index := fieldLE x 2 6, fire := fieldLE x 8 8, cause := bits mf 1 3, epoch := fieldLE x 18 2, digest := fieldLE x 20 4
    stagedDigest := fieldLE x 24 4, stagedTarget := fieldLE x 28 6, halt := bit ct 0, abort := bit ct 1, armed := bit ct 2
    commit := bit ct 3, flags := BitVec.ofNat 32 (fieldLE x 36 4), presence := BitVec.ofNat 4 (fieldLE x 34 2)
    status := BitVec.ofNat 12 (fieldLE x 34 2 / 16)
    cargo := Vector.ofFn (fun n => BitVec.ofNat 64 (fieldLE b.toNat (8 * n.val) 8))
    mismatch := bit mf 7, drop := bits mf 4 2 == 3 }

/-- A release goes down the tree: to every child device and member Basin (R333). -/
def State.releaseDown (s : State) (c : Nat) (r : Release) : State :=
  (s.childTrunks c).foldl (fun s t => s.sendMarker t (s.domainOf c) (encRelease (s.domainOf c) s.fabric.devid r)) s

/-! ### Digests of replicas (R272, R344) -/

/-- One entry of a DIGEST body. -/
def digestEntry (d : DigestEntry) (o : Nat) : List (Nat × Nat × Nat) :=
  [(o, 4, d.tid), (o + 4, 1, d.repl), (o + 8, 8, d.grow0), (o + 16, 8, d.gcol0), (o + 24, 8, d.digest)]

/-- The two entries of a DIGEST body; an entry of REPL 0 is empty. -/
def decDigests (b : Line) : List DigestEntry :=
  ((List.range 2).map (fun i =>
    let f (o n : Nat) := fieldLE b.toNat (32 * i + o) n
    ({ device := 0, tid := f 0 4, repl := f 4 1, grow0 := f 8 8, gcol0 := f 16 8, digest := f 24 8 } : DigestEntry))).filter
      (fun d => d.repl ≠ 0)

/-- DIGEST units of a list of entries, two to a unit. -/
def digestUnits : List DigestEntry → List LinkUnit
  | [] => []
  | [a] => [linkUnit lDIGEST (digestEntry a 0)]
  | a :: b :: r => linkUnit lDIGEST (digestEntry a 0 ++ digestEntry b 32) :: digestUnits r

/-- Are two entries digests of replicas (R344)? -/
def DigestEntry.same (a b : DigestEntry) : Bool := a.tid == b.tid && a.repl == b.repl && a.grow0 == b.grow0 && a.gcol0 == b.gcol0

/-- The digests of the replica shards of a context at the last committed step, with their shard entries. -/
def State.replicaDigests (s : State) (c : Nat) : List (Nat × DigestEntry) :=
  ((s.shardsOf c).filter (fun p => shRepl p.2 ≠ 0)).map (fun p =>
    (p.1, { device := s.fabric.devid, tid := shTid p.2, repl := shRepl p.2, grow0 := shGrow0 p.2, gcol0 := shGcol0 p.2
            digest := Tbl.get 0 (s.ctx c).upd.committed p.1 }))

/-- A mismatch of digests, once for a comparison: flag, record, event, and under policy 1 the HALT request of the next gather
(R272, R344). -/
def State.digestMismatch (s : State) (c entry tid : Nat) : State :=
  let cx := s.ctx c
  if cx.digestBad.contains entry then s
  else
    let u := cx.upd
    let u := { u.flag usDigest with
      udigfail := if u.ustatus &&& usDigest = 0 then BitVec.ofNat 64 (pack [(0, 32, tid), (32, 14, entry)]) else u.udigfail
      haltWanted := u.haltWanted || u.policyHalt }
    let s := s.setCtx c { cx with upd := u, digestBad := entry :: cx.digestBad }
    s.postTenant (c / 4) 0x11 0 cx.eventId (body [(24, 4, tid), (28, 2, entry), (32, 8, u.ustep)])

/-- Compares digests that came from other devices with this device's own, set by set (R344). -/
def State.compareWith (s : State) (c : Nat) (ds : List DigestEntry) : State :=
  ((s.replicaDigests c).filter (fun p => ds.any (fun d => d.same p.2 && d.digest != p.2.digest))).foldl
    (fun s p => s.digestMismatch c p.1 p.2.tid) s

/-- DIGEST units travel in the domain's owned slots along every tree edge but the one they came on. -/
def State.spreadDigests (s : State) (c : Nat) (from_ : Option Nat) (us : List LinkUnit) : State :=
  match s.grantOf c with
  | none => s
  | some g =>
    ((List.range 6).filter (fun t => (g.parent == t || g.children.getLsbD t) && from_ != some t)).foldl (fun s t =>
      match s.trunkPort t with
      | some p => us.foldl (fun s u => s.sendOwned p g.domainId u) s
      | none => s) s

/-- The comparison that falls due after lock C_s of step `t` (R272, R344). -/
def State.compareDigests (s : State) (c : Nat) : State :=
  let cx := s.ctx c
  let own := s.replicaDigests c
  let s := s.modCtx c (fun cx => { cx with digestBad := [] })
  let bad := own.filter (fun p => own.any (fun q => decide (q.1 < p.1) && q.2.same p.2 && q.2.digest != p.2.digest))
  let s := bad.foldl (fun s p => s.digestMismatch c p.1 p.2.tid) s
  if cx.spans then
    let s := s.compareWith c cx.digestMsgs
    (s.modCtx c (fun cx => { cx with digestMsgs := [] })).spreadDigests c none (digestUnits (own.map Prod.snd))
  else s

end Sys2Proof.Machine
end

