-- ==== Sys2Proof/Machine/Ring.lean ====
section
/-! DEFINITION. Loop streams, their rings in the Hold window, and the Whippet's sealing of query batches
(15_loop_and_measurement.md, R410, R411, R415). -/

namespace Sys2Proof.Machine

/-! ### Stream entries of a Loop port (R410) -/

/-- Canal endpoint of the I/O die that holds Loop port `l` (R523). -/
def loopEndpoint (l : Nat) : Nat := if l < 4 then 614 else 622
/-- Is the endpoint an I/O die of Loop ports? -/
def isLoopEp (ep : Nat) : Bool := ep == 614 || ep == 622
/-- The Loop port of a stream whose PEP names a Loop die: PIX within the die. -/
def loopPortOf (ep pix : Nat) : Nat := (if ep = 614 then 0 else 4) + pix

def lpRole (e : BitVec 256) : Nat := bits e.toNat 142 2
def lpService (e : BitVec 256) : Nat := bits e.toNat 144 8
def lpAdmit (e : BitVec 256) : Nat := bits e.toNat 152 16
def lpTmax (e : BitVec 256) : Nat := bits e.toNat 168 13
def lpTshift (e : BitVec 256) : Nat := bits e.toNat 181 4
def lpQmax (e : BitVec 256) : Nat := bits e.toNat 185 5
def wstPix (e : BitVec 256) : Nat := bits e.toNat 190 2

/-- Is a stream entry a Loop stream? -/
def isLoop (e : BitVec 256) : Bool := wstValid e && decide (2 ≤ wstKind e) && isLoopEp (wstPep e)

/-- The stream entry of a stream key, 64 × wharf + entry. -/
def State.streamEntry (s : State) (k : Nat) : BitVec 256 := (s.wharf (k / 64)).wst (k % 64)
def State.loopStream (s : State) (k : Nat) : LoopStream := Tbl.get {} s.streams k
def State.setStream (s : State) (k : Nat) (v : LoopStream) : State := { s with streams := s.streams.set k v }
def State.modStream (s : State) (k : Nat) (f : LoopStream → LoopStream) : State := s.setStream k (f (s.loopStream k))

/-- Keys of the Loop streams of a list of granules. -/
def State.loopKeys (s : State) (gs : List Nat) : List Nat :=
  gs.flatMap (fun g => ((s.wharf g).streams.filter (fun p => isLoop p.2)).map (fun p => 64 * g + p.1))

/-! ### Rings (R411) -/

/-- Stride of a ring's slots. -/
def ringStride (e : BitVec 256) : Nat := 1 + cdiv (lpTmax e * 2 ^ lpTshift e) 64
/-- RSLOTS. -/
def ringSlots (e : BitVec 256) : Nat := (wstLsize e - 1) / ringStride e
/-- Hold line of the header. -/
def ringHeader (e : BitVec 256) : Nat := wstLbase e
/-- Hold line of the descriptor of slot `i`. -/
def slotLine (e : BitVec 256) (i : Nat) : Nat := wstLbase e + 1 + i * ringStride e

/-- STATE of a slot's descriptor: 0 FREE, 1 FULL, 2 REJECTED. -/
def State.slotState (s : State) (e : BitVec 256) (i : Nat) : Nat := s.hold.readLE (64 * slotLine e i + 12) 1

/-- Writes STATE 0 into a slot's descriptor line (R416). -/
def State.freeSlot (s : State) (e : BitVec 256) (i : Nat) : State :=
  let l := slotLine e i
  s.writeLine l (BitVec.ofNat 512 (setBits (s.holdLine l).toNat 96 8 0)) 0

/-! ### Sealing (R415) -/

/-- The manifest of a batch. [DEDUCED: log 68] -/
def manifest (batch lock : Nat) (slots : List Nat) : Nat :=
  packLE ([(0, 8, batch), (8, 6, lock), (14, 2, slots.length)] ++
    (slots.zip (List.range slots.length)).map (fun p => (16 + 2 * p.2, 2, p.1)))

/-- Seals one QUERY stream's batch at lock `k`. -/
def State.sealStream (s : State) (k lock : Nat) : State :=
  let e := s.streamEntry k
  let st := s.loopStream k
  let take := st.queue.take (lpQmax e)
  let s := s.setStream k { st with batch := st.batch + 1, queue := st.queue.drop (lpQmax e) }
  s.writeLine (ringHeader e) (BitVec.ofNat 512 (manifest (st.batch + 1) lock take)) 0

/-- WHIPPET_SEAL: at a release with flag 31, not a replay's, every QUERY stream of the domain is sealed (R415, R438). -/
def State.whippetSeal (s : State) (c : Nat) (r : Release) : State :=
  if bit r.flags.toNat 31 && !r.replay then
    ((s.loopKeys (s.gransOf c)).filter (fun k => lpRole (s.streamEntry k) == 1)).foldl (fun s k => s.sealStream k r.index) s
  else s

end Sys2Proof.Machine
end

