-- ==== Sys2Proof/Machine/ScalarCore.lean ====
section
/-! DEFINITION. The frame of every scalar instruction: when the core may begin one, the fields of its word (formats R,
I, S, B, U, F, Y and A), its registers (R160), its loads (R164), and how it completes or faults (R95, R161, R163, R180). -/

namespace Sys2Proof.Machine

/-! ### Registers (R160) -/

/-- Integer register `i`; g0 reads as zero. -/
def Core.gr (c : Core) (i : Nat) : Word := if i % 32 = 0 then 0#32 else c.g[i % 32]'(Nat.mod_lt i (by decide))

/-- The core with `v` in integer register `i`; a write to g0 has no effect. -/
def Core.setG (c : Core) (i : Nat) (v : Word) : Core :=
  if i % 32 = 0 then c else { c with g := c.g.set (i % 32) v (Nat.mod_lt i (by decide)) }

/-- Floating register `i`. -/
def Core.fr (c : Core) (i : Nat) : DWord := c.f[i % 32]'(Nat.mod_lt i (by decide))

/-- The core with `v` in floating register `i`. -/
def Core.setF (c : Core) (i : Nat) (v : DWord) : Core := { c with f := c.f.set (i % 32) v (Nat.mod_lt i (by decide)) }

def Tile.gr (t : Tile) (i : Nat) : Word := t.core.gr i
def Tile.setG (t : Tile) (i : Nat) (v : Word) : Tile := { t with core := t.core.setG i v }
def Tile.fr (t : Tile) (i : Nat) : DWord := t.core.fr i
def Tile.setF (t : Tile) (i : Nat) (v : DWord) : Tile := { t with core := t.core.setF i v }

/-! ### Fields of an instruction word -/

/-- The instruction word at an instruction-buffer index (R94). -/
def Tile.instrAt (t : Tile) (i : Nat) : Word := Tbl.get 0#32 t.ibuf (i % 4096)

/-- The word the core executes next. -/
def Tile.instr (t : Tile) : Word := t.instrAt t.core.pc.toNat

def iOp (w : Word) : Nat := bits w.toNat 25 7
/-- RD, RS, D or a B-format RA: bits [24:20]. -/
def iRD (w : Word) : Nat := bits w.toNat 20 5
/-- RA, A or a B-format RB: bits [19:15]. -/
def iRA (w : Word) : Nat := bits w.toNat 15 5
def iRB (w : Word) : Nat := bits w.toNat 10 5
def iC (w : Word) : Nat := bits w.toNat 5 5
def iRM (w : Word) : Nat := bits w.toNat 2 3
def iP (w : Word) : Bool := bit w.toNat 1
def iX (w : Word) : Bool := bit w.toNat 0
def iFN (w : Word) : Nat := bits w.toNat 0 10
def iIMM (w : Word) : Nat := bits w.toNat 0 15
def iIMM20 (w : Word) : Nat := bits w.toNat 0 20
def iH (w : Word) : Nat := bits w.toNat 12 8
def iN (w : Word) : Nat := bits w.toNat 0 12
def iCNT (w : Word) : Nat := bits w.toNat 7 8
/-- sext(IMM) as a 32-bit word. -/
def iSImm (w : Word) : Word := BitVec.ofInt 32 (sext (iIMM w) 15)

/-- g[RA] + sext(IMM) as a u32. -/
def Tile.ea (t : Tile) (w : Word) : Nat := (t.gr (iRA w) + iSImm w).toNat

/-! ### Which words are instructions (R161) -/

/-- FN values of the ALU table. -/
def aluFn (fn : Nat) : Bool := decide (fn ≤ 0x00D) || (decide (0x010 ≤ fn) && decide (fn ≤ 0x012)) || (decide (0x014 ≤ fn) && decide (fn ≤ 0x017))

/-- A floating word's fields: which operands the operation uses, the rounding modes it accepts, P and X. -/
def fpLegal (w : Word) : Bool :=
  let b0 := iRB w == 0
  let c0 := iC w == 0
  let rmR := decide (iRM w ≤ 3)
  let rm0 := iRM w == 0
  let x0 := !iX w
  match iOp w with
  | 0x30 | 0x31 | 0x32 | 0x35 => c0 && rmR && x0
  | 0x33 | 0x34 => rmR && x0
  | 0x36 | 0x39 => b0 && c0 && rmR && x0
  | 0x37 | 0x38 => c0 && rm0 && x0
  | 0x3A => decide (iC w < 4) && rm0 && x0
  | 0x3B | 0x3C => b0 && c0 && rmR
  | 0x3D | 0x3E => b0 && c0 && rm0 && !iP w
  | _ => false

/-- Does the core execute the word at all (R161)? MEMBER is checked by LOCK itself. -/
def legal (w : Word) : Bool :=
  match iOp w with
  | 0x01 | 0x49 | 0x4A => bits w.toNat 0 25 == 0
  | 0x02 => aluFn (iFN w)
  | 0x09 => decide (bits w.toNat 13 2 < 3) && bits w.toNat 5 8 == 0
  | 0x26 => bits w.toNat 12 8 == 0
  | 0x40 => decide (iRD w < 3)
  | 0x41 | 0x42 => iRD w == 0
  | 0x44 => iRD w == 0 && bits w.toNat 0 7 == 0
  | 0x45 => bits w.toNat 0 7 == 0
  | 0x48 => bits w.toNat 0 10 == 0
  | 0x56 | 0x57 => iRA w == 0
  | 0x03 | 0x04 | 0x05 | 0x06 | 0x07 | 0x08 | 0x0A | 0x10 | 0x11 | 0x12 | 0x13 | 0x14 | 0x15 | 0x16
  | 0x18 | 0x19 | 0x1A | 0x1B | 0x1C | 0x20 | 0x21 | 0x22 | 0x23 | 0x24 | 0x25 | 0x27 | 0x43
  | 0x50 | 0x51 | 0x52 | 0x53 | 0x54 | 0x55 => true
  | _ => fpLegal w

/-! ### Beginning and completing an instruction -/

/-- Stands a breakpoint at the instruction at PC that is not being stepped over (R180, R425)? -/
def Tile.breaks (t : Tile) : Bool := !t.core.stepOver && t.brk.any (fun p => p.2 == t.core.pc.toNat)

/-- Has the Beagle debugging enabled for a tile's region (R180, TEN_POLICY.DEBUG)? -/
def State.debugOn (s : State) (t : Nat) : Bool :=
  match s.tenantOfGran (granOf t) with
  | some n => (s.tenant n).debug
  | none => false

/-- Does the Beagle stop a tile's core before the instruction at PC: not without the debug right (R180, R377)? -/
def State.breaksAt (s : State) (t : Nat) : Bool := (s.tile t).breaks && s.debugOn t

/-- The core begins its next instruction: it runs, nothing stops it and its die's clock runs. -/
def State.coreReady (s : State) (t : Nat) : Bool :=
  let tl := s.tile t
  tl.core.act == .run && !tl.faulted && tl.core.stop.isNone && !s.breaksAt t && s.tileClocked t

/-- What an instruction does to its tile: it completes and goes on at `next`, faults, or occupies the core further. -/
inductive SRes where
  | done (t : Tile) (next : Nat) (cost : Nat)
  | fault (t : Tile) (cause detail addr : Nat) (hw : Bool)
  | stay (t : Tile)

/-- An instruction has completed: PC, the generator block's cycles since its contents `old` (R289) and a stop that waited for it (R180). -/
def Tile.completes (t : Tile) (old : GenBlock) (next cost : Nat) : Tile :=
  { t with
    core := { t.core with act := .run, pc := BitVec.ofNat 12 next, stepOver := false, stopReq := false
                          stop := if t.core.stopReq then some .stop else t.core.stop }
    gen := t.gen.advance (old.genIn, old.genPos) cost }

/-- Reason codes of a stopped core (R425 operation 4). -/
def StopReason.code : StopReason → Nat
  | .breakpoint => 1
  | .brk => 2
  | .stop => 3

/-- A core stopped by the Beagle is reported: a BEAGLE event and a trace record (R426, R428). Its cycles go on, so GEN_OUT comes to
show the contents it has (R289). -/
def State.stopEvent (s : State) (t : Nat) : State :=
  let tl := s.tile t
  match tl.core.stop with
  | none => s
  | some r =>
    let s := s.modTile t (fun t => { t with gen := t.gen.settled })
    let s := match tl.home with
      | some c => s.postTenant (c / 4) 0x72 1 (s.ctx c).eventId
          (body [(24, 1, tl.vx), (25, 1, tl.vy), (26, 2, r.code), (28, 2, tl.core.pc.toNat)])
      | none => s
    s.trace t 6 0 r.code

/-- The outcome of an instruction put into the state. [DEDUCED: log 18] -/
def State.scalarResult (s : State) (t : Nat) (index : Nat) : SRes → State
  | .done tl next cost => (s.setTile t (tl.completes (s.tile t).gen next cost)).stopEvent t
  | .fault tl cause detail addr hw => (s.setTile t tl).tileFault t cause 0 detail index addr hw
  | .stay tl => s.setTile t tl

/-- One scalar instruction of tile `t`: it begins only while the core is ready and the word at PC has opcode `op`;
an illegal word faults (R161). `ups` strikes the tile's memory first. [DESIGN CHOICE: log 8] -/
def scalar (t op : Nat) (ups : List (Nat × Bool)) (f : Tile → Word → Nat → SRes) (s : State) : Out :=
  if numTiles ≤ t then .fault .noSuchUnit
  else
    let tl := (s.tile t).upsets ups
    let w := tl.instr
    if s.coreReady t && iOp w == op then
      .next (s.scalarResult t tl.core.pc.toNat
        (if legal w then f tl w tl.core.pc.toNat else .fault tl cIllegal 0 0 false))
    else .next s

/-- An instruction that writes integer register RD and goes on. -/
def toG (cost : Nat) (f : Tile → Word → Word) (tl : Tile) (w : Word) (pc : Nat) : SRes :=
  .done (tl.setG (iRD w) (f tl w)) (pc + 1) cost

/-! ### Checked loads (R164) -/

/-- A checked read of tile memory by the scalar core. -/
inductive MemRes where
  | ok (t : Tile) (v : Nat)
  | bad (t : Tile) (cause addr : Nat) (hw : Bool)

/-- Address and alignment checks, then the checked words (R164, R166). -/
def Tile.load (t : Tile) (ea size : Nat) : MemRes :=
  if 2 ^ 22 ≤ ea then .bad t cRange ea false
  else if ea % size ≠ 0 then .bad t cMisaligned ea false
  else match t.checkWords (ea / 8) ((size + 7) / 8) with
    | (t, none) => .ok t (t.readMem ea size)
    | (t, some (a, fresh)) => .bad t cIntegrity (if size ≤ 8 then ea else a) fresh

end Sys2Proof.Machine
end

