-- ==== Sys2Proof/Machine/ScalarSync.lean ====
section
/-! DEFINITION. Scalar instructions that issue orders, wait, signal, fill the instruction buffer, meet the lock and stop
(R166 to R171, R180). -/

namespace Sys2Proof.Machine

/-- An order enters the tail of its queue (R73). -/
def Tile.enqueue (t : Tile) (e : Nat) (o : Order) : Tile :=
  let en := t.engine e
  t.setEngine e { en with queue := en.queue ++ [o], gated := false }

/-- A full queue (R73). -/
def Tile.queueFull (t : Tile) (e : Nat) : Bool := decide (16 ≤ (t.engine e).queue.length)

/-- The descriptor read and the order's entry, in the `cost`-th cc of its ISS (R163, R166). -/
def enterOrder (e ea cost : Nat) (tl : Tile) (pc : Nat) : SRes :=
  match tl.load ea 16 with
  | .ok tl v => .done (tl.enqueue e (BitVec.ofNat 128 v)) (pc + 1) cost
  | .bad tl cause addr hw => .fault tl cause 0 addr hw

/-- A trace record for the order that entered, where one did (R426 event 3: opcode and queue depth). -/
def State.traceIssue (before after : State) (t e : Nat) : State :=
  let q := ((after.tile t).engine e).queue
  if ((before.tile t).engine e).queue.length < q.length then
    after.trace t 3 e (ordOpcode (q.getLastD 0#128) + q.length * 256)
  else after

/-- ISS: the address is checked in the first cc; a full queue stalls the core (R166). -/
def execIss (t : Nat) (ups : List (Nat × Bool)) (s : State) : Out :=
  match scalar t 0x40 ups (fun tl w pc =>
    let e := iRD w
    let ea := tl.ea w
    if 2 ^ 22 ≤ ea then .fault tl cRange 0 ea false
    else if ea % 16 ≠ 0 then .fault tl cMisaligned 0 ea false
    else if tl.queueFull e then .stay { tl with core := { tl.core with act := .issStall e ea } }
    else enterOrder e ea 1 tl pc) s with
  | .next s' => .next (s.traceIssue s' t (iRD (s.tile t).instr))
  | o => o

/-- ORDER_ENQUEUE: a stalled ISS reads its descriptor and its order enters once an entry is free; it has taken two cycles or more,
which GEN_OUT does not tell apart (R163, R166, R289). -/
def execOrderEnqueue (t : Nat) (ups : List (Nat × Bool)) (s : State) : Out :=
  if numTiles ≤ t then .fault .noSuchUnit
  else
    let tl := (s.tile t).upsets ups
    match tl.core.act with
    | .issStall e ea =>
      if s.enginesRun t && !tl.queueFull e then
        .next (s.traceIssue (s.scalarResult t tl.core.pc.toNat (enterOrder e ea 2 tl tl.core.pc.toNat)) t e)
      else .next s
    | _ => .next s

/-- A scalar instruction that names handle H: an unbound one faults with H in DETAIL (R167). -/
def withHandle (f : Tile → Word → Nat → SRes) (tl : Tile) (w : Word) (pc : Nat) : SRes :=
  if (tl.sync.find (iH w)).isNone then .fault tl cUnbound (iH w) 0 false else f tl w pc

/-- SWAIT: tested in its first cc as the scalar waiter; unsatisfied, it waits (R167). [DEDUCED: log 20] -/
def execSwait (t : Nat) (s : State) : Out :=
  scalar t 0x41 [] (withHandle (fun tl w pc =>
    if iN w ≤ tl.avail 3 (iH w) then .done (tl.syncTake (iH w) (iN w)) (pc + 1) 1
    else .stay { tl with core := { tl.core with act := .swait (iH w) (iN w) } })) s

/-- SWAIT_SATISFIED: the count is reduced and SWAIT completes (R167). -/
def execSwaitSatisfied (t : Nat) (s : State) : Out :=
  if numTiles ≤ t then .fault .noSuchUnit
  else
    let tl := s.tile t
    match tl.core.act with
    | .swait h n =>
      if s.enginesRun t && decide (n ≤ tl.avail 3 h) then
        .next (s.scalarResult t tl.core.pc.toNat (.done (tl.syncTake h n) (tl.core.pc.toNat + 1) 2))
      else .next s
    | _ => .next s

/-- SSIG (R167). -/
def execSsig (t : Nat) (s : State) : Out :=
  scalar t 0x42 [] (withHandle (fun tl w pc => .done (tl.syncSignal (iH w) (iN w)) (pc + 1) 1)) s

/-- STRY: one test (R167). -/
def execStry (t : Nat) (s : State) : Out :=
  scalar t 0x43 [] (withHandle (fun tl w pc =>
    if iN w ≤ tl.avail 3 (iH w) then .done ((tl.syncTake (iH w) (iN w)).setG (iRD w) 1) (pc + 1) 1
    else .done (tl.setG (iRD w) 0) (pc + 1) 1)) s

/-- AWAIT (R168). -/
def execAwait (t : Nat) (s : State) : Out :=
  scalar t 0x44 [] (fun tl w pc =>
    let target := (tl.gr (iRA w)).toNat
    if tl.acntReached (iCNT w) target then .done tl (pc + 1) 1
    else .stay { tl with core := { tl.core with act := .await (iCNT w) target } }) s

/-- AWAIT_SATISFIED (R168). -/
def execAwaitSatisfied (t : Nat) (s : State) : Out :=
  if numTiles ≤ t then .fault .noSuchUnit
  else
    let tl := s.tile t
    match tl.core.act with
    | .await cnt target =>
      if s.enginesRun t && tl.acntReached cnt target then
        .next (s.scalarResult t tl.core.pc.toNat (.done tl (tl.core.pc.toNat + 1) 2))
      else .next s
    | _ => .next s

/-- ATEST (R168). -/
def execAtest (t : Nat) (s : State) : Out :=
  scalar t 0x45 [] (fun tl w pc =>
    .done (tl.setG (iRD w) (if tl.acntReached (iCNT w) (tl.gr (iRA w)).toNat then 1 else 0)) (pc + 1) 1) s

/-- The instruction buffer with `n` words of tile memory from `a` at index `i` (R169). -/
def fillFrom (m : Mem) (a : Nat) (b : Tbl Word) (i : Nat) : Nat → Tbl Word
  | 0 => b
  | n + 1 => fillFrom m (a + 4) (Tbl.put 0#32 b i (BitVec.ofNat 32 (m.readLE a 4))) (i + 1) n

/-- IFILL: its checks in their order, the reads, then all blocks at once (R169). All its words are read, and counted, also after
one that fails. [DESIGN CHOICE: log 189] -/
def execIfill (t : Nat) (ups : List (Nat × Bool)) (s : State) : Out :=
  scalar t 0x48 ups (fun tl w pc =>
    let nb := bits w.toNat 10 5
    let a := (tl.gr (iRA w)).toNat
    let b := (tl.gr (iRD w)).toNat
    if nb = 0 ∨ 16 < nb then .fault tl cIllegal 0 0 false
    else if 2 ^ 22 ≤ a ∨ 2 ^ 22 < a + 64 * nb then .fault tl cRange 0 a false
    else if a % 64 ≠ 0 then .fault tl cMisaligned 0 a false
    else if 4096 < b + 16 * nb then .fault tl cRange 0 b false
    else if b % 16 ≠ 0 then .fault tl cMisaligned 0 b false
    else match tl.checkWords (a / 8) (8 * nb) with
      | (tl, some (addr, fresh)) => .fault tl cIntegrity 0 addr fresh
      | (tl, none) => .done { tl with ibuf := fillFrom tl.mem a tl.ibuf b (16 * nb) } (pc + 1) (nb + 1)) s

/-! ### The lock instruction (R170, R59, R51) -/

/-- Is a granule detoured: substituted, or with a path charged to its place (R431)? -/
def State.isDetoured (s : State) (g : Nat) : Bool := s.detoured.contains (s.virtGran g)

/-- The cause code a member tile attaches to its arrival: the highest in rank of what happened to it (R51). -/
def State.tileCause (s : State) (t : Nat) (cx : Ctx) : Nat :=
  let seen := (s.tile t).retryCause ||| s.domainCauses cx
  if seen.getLsbD 5 then 5
  else if seen.getLsbD 3 || decide ((s.die (dieOf t)).step < 34) then 3
  else if s.isDetoured (granOf t) then 4
  else if seen.getLsbD 1 then 1
  else if seen.getLsbD 2 then 2
  else 0

/-- Highest of two cause codes in rank (R51: 5, 3, 4, 1, 2, 0). -/
def causeRank (c : Nat) : Nat :=
  match c with
  | 5 => 6
  | 3 => 5
  | 4 => 4
  | 1 => 3
  | 2 => 2
  | _ => 0

/-- The arrival of tile `t` at the next lock of context `c`: cargo and flags are sampled (R59, R170). [DEDUCED: log 21] -/
def State.arriveTile (s : State) (t c : Nat) : State :=
  let tl := s.tile t
  let cx := s.ctx c
  let a : Arrival := { tile := t, time := s.now, cause := s.tileCause t cx, mask := tl.lock.cargoMask
                       vals := tl.lock.contrib, flags := tl.lock.flagsOut }
  let s := s.setCtx c { cx with
    arrivals := cx.arrivals ++ [a]
    firstArrival := match cx.firstArrival with
      | some x => some x
      | none => some s.now }
  let s := s.setTile t { tl with arrived := true, arrivedMark := tl.lock.acctMark, core := { tl.core with act := .lockStall, stepOver := false } }
  s.trace t 1 0 a.cause

/-- LOCK: the tile arrives and its core stalls; outside a running domain it is illegal (R170). -/
def execLock (t : Nat) (s : State) : Out :=
  match (s.tile t).home with
  | some c =>
    if s.member t && s.coreReady t && iOp (s.tile t).instr == 0x49 && legal (s.tile t).instr && decide (t < numTiles) then
      .next (s.arriveTile t c)
    else scalar t 0x49 [] (fun tl _ _ => .fault tl cIllegal 0 0 false) s
  | none => scalar t 0x49 [] (fun tl _ _ => .fault tl cIllegal 0 0 false) s

/-! ### Stops (R180) -/

/-- BRK: stops the core before the next instruction under debugging, else a NOP (R180). -/
def execBrk (t : Nat) (s : State) : Out :=
  scalar t 0x4A [] (fun tl _ pc =>
    .done (if s.debugOn t then { tl with core := { tl.core with stop := some .brk } } else tl) (pc + 1) 1) s

/-- BREAKPOINT_STOP: the core stops before the instruction at a breakpoint index (R180). -/
def execBreakpointStop (t : Nat) (s : State) : Out :=
  if numTiles ≤ t then .fault .noSuchUnit
  else
    let tl := s.tile t
    if tl.core.act == .run && !tl.faulted && tl.core.stop.isNone && s.breaksAt t && s.tileClocked t then
      .next ((s.setTile t { tl with core := { tl.core with stop := some .breakpoint } }).stopEvent t)
    else .next s

end Sys2Proof.Machine
end

