-- ==== Sys2Proof/Machine/Locks.lean ====
section
/-! DEFINITION. Locks (02_locks.md): gather, cargo, firing, staged commits, releases, delayed scaling and overdue locks. -/

namespace Sys2Proof.Machine

/-! ### Sorting -/

/-- Inserts by key, keeping equal keys in order. -/
def insertBy {α : Type} (key : α → Nat) (a : α) : List α → List α
  | [] => [a]
  | b :: r => if key a < key b then a :: b :: r else b :: insertBy key a r

/-- A list in ascending order of key. -/
def sortBy {α : Type} (key : α → Nat) (l : List α) : List α := l.foldl (fun acc a => insertBy key a acc) []

/-! ### Cargo (R59 to R62) -/

/-- Virtual granule index of a tile's place. -/
def Tile.vgran (t : Tile) : Nat := 32 * (t.vy / 4) + t.vx / 4
/-- Local index of a tile in its granule (R60). -/
def Tile.vlocal (t : Tile) : Nat := 4 * (t.vy % 4) + t.vx % 4

/-- Sum of one slot over the contributing tiles: within granules in local order, then over granules in row-major order (R60). -/
def State.slotSum {α : Type} (s : State) (add : α → α → α) (val : Arrival → α) (as : List Arrival) : Option α :=
  let gran (a : Arrival) : Nat := (s.tile a.tile).vgran
  let loc (a : Arrival) : Nat := (s.tile a.tile).vlocal
  treeSum add ((sortBy id (as.map gran).eraseDups).filterMap (fun g =>
    treeSum add ((sortBy loc (as.filter (fun a => gran a == g))).map val)))

/-- The exponent E of a cargo slot. -/
def Ctx.slotExp (cx : Ctx) (n : Nat) : Int := (cx.cargoExp.toList.getD n 0).toInt

/-- Addition of two encoded slot values: binary64, or window partials under exact cargo (R60, R61). -/
def addCargo (exact : Bool) (a b : BitVec 128) : BitVec 128 :=
  if exact then BitVec.ofNat 128 (winBits (combineWin (winOfBits a.toNat) (winOfBits b.toNat)))
  else BitVec.ofNat 128 (add64 (BitVec.ofNat 64 a.toNat) (BitVec.ofNat 64 b.toNat)).toNat

/-- The contribution of an arrival to slot `n`, as the gather carries it (R61). -/
def cargoValue (cx : Ctx) (n : Nat) (a : Arrival) : BitVec 128 :=
  let v := (a.vals.toList.getD n 0).toNat
  if cx.cargoExact then BitVec.ofNat 128 (winBits (toPartial (f64 v) (cx.slotExp n))) else BitVec.ofNat 128 v

/-- This device's own sum of a slot; none where no tile contributes. -/
def State.ownCargo (s : State) (c n : Nat) : Option (BitVec 128) :=
  let cx := s.ctx c
  s.slotSum (addCargo cx.cargoExact) (cargoValue cx n) (cx.arrivals.filter (fun a => a.mask.toNat.testBit n))

/-- The status bits of the slots of a window gather: LOW, HIGH, NONFINITE. -/
def cargoStatus (exact : Bool) (cargo : List (BitVec 128)) : BitVec 12 :=
  if exact then
    BitVec.ofNat 12 (pack ((List.range 4).flatMap (fun n =>
      let w := winOfBits (cargo.getD n 0).toNat
      [(n, 1, b2n w.low), (4 + n, 1, b2n w.high), (8 + n, 1, b2n w.nonfinite)])))
  else 0

/-! ### The gather (R51, R56, R57, R60) -/

/-- (time, rank) order of causes: the latest arrival's, the higher-ranked where two come at once (R51). -/
def lateCause (l : List (Nat × Nat)) : Nat × Nat :=
  l.foldl (fun b p => if b.1 < p.1 ∨ (b.1 = p.1 ∧ causeRank b.2 < causeRank p.2) then p else b) (0, 0)

/-- Staged state of a node (R56): 0 none, 1 all equal, 2 mixed, 3 conflicting, with digest and target, over (state, digest, target). -/
def stagedOf (l : List (Nat × Nat × Nat)) : Nat × Nat × Nat :=
  match l.find? (fun p => p.1 ≠ 0) with
  | none => (0, 0, 0)
  | some (_, d, t) =>
    let conflict := l.any (fun p => p.1 == 3 || (p.1 != 0 && (p.2.1 != d || p.2.2 != t)))
    let mixed := l.any (fun p => p.1 == 0 || p.1 == 2)
    (if conflict then 3 else if mixed then 2 else 1, d, t)

/-- What arrived at this device's root for the lock being gathered, with its cause code: tiles, HUUs, child devices, and the
Lockkeeper with code 0 (R39, R51). -/
def Ctx.arrived (cx : Ctx) : List (Nat × Nat) :=
  cx.arrivals.map (fun a => (a.time, a.cause)) ++ cx.huuArrived.map Prod.snd ++ (if cx.lkArrived then [(cx.lkTime, 0)] else [])

/-- The combined gather marker of this device's subtree for the lock being gathered; a relay adds nothing of its own, and sums
as its children's markers say. -/
def State.gatherOf (s : State) (c : Nat) : GatherMarker :=
  let cx := s.ctx c
  let k := cx.gathering
  let kids := sortBy GatherMarker.device cx.childMarkers
  let relay := decide (numCtxs ≤ c)
  let exact := if relay then kids.any GatherMarker.exact else cx.cargoExact
  let own (n : Nat) : List (BitVec 128) := (s.ownCargo c n).toList
  let slot (n : Nat) : Option (BitVec 128) :=
    treeSum (addCargo exact) (own n ++ kids.filterMap (fun m => if m.presence.getLsbD n then some (m.cargo.toList.getD n 0) else none))
  let slots := (List.range 4).map slot
  let cargo := slots.map (fun x => x.getD 0)
  let lc := lateCause (cx.arrived ++ kids.map (fun m => (m.at_, m.cause)))
  let ownCfg := if relay then [] else [(cx.epoch, cx.digest)]
  let cfgs := ownCfg ++ kids.map (fun m => (m.epoch, m.digest))
  let cfg := cfgs.headD (0, 0)
  let ownSt := if relay then [] else match cx.staged with
    | some g => [(1, g.digest, g.target)]
    | none => [(0, 0, 0)]
  let st := stagedOf (ownSt ++ kids.map (fun m => (m.stagedState, m.stagedDigest, m.stagedTarget)))
  { trunk := 0, device := s.fabric.devid, index := k, latest := (cx.arrived.map Prod.fst ++ kids.map GatherMarker.latest).foldl max 0, cause := lc.2, epoch := cfg.1, digest := cfg.2
    mismatch := cfgs.any (fun p => p != cfg) || kids.any GatherMarker.mismatch || (!relay && !cx.started && cx.upd.importMixed)
    stagedDigest := st.2.1, stagedTarget := st.2.2, stagedState := st.1
    halt := cx.haltReq || cx.haltAt.contains k || kids.any GatherMarker.halt, abort := cx.abortReq || kids.any GatherMarker.abort
    flags := (cx.arrivals.map Arrival.flags ++ kids.map GatherMarker.flags).foldl (· ||| ·) 0
    presence := BitVec.ofNat 4 (pack ((List.range 4).map (fun n => (n, 1, b2n (slots.getD n none).isSome))))
    status := (kids.map GatherMarker.status).foldl (· ||| ·) (cargoStatus exact cargo), exact := exact
    cargo := Vector.ofFn (fun n => cargo.getD n.val 0) }

/-- Is the Lockkeeper a member of the lock being gathered (R39, R422)? -/
def Ctx.needsLk (cx : Ctx) : Bool := cx.scalesDue == some cx.gathering

/-- Has this device's whole subtree arrived at the lock being gathered (R39, R44)? -/
def State.subtreeIn (s : State) (c : Nat) : Bool :=
  let cx := s.ctx c
  let kids := (s.childTrunks c).all (fun t => cx.childMarkers.any (fun m => m.trunk == t && m.index == cx.gathering))
  if !cx.started then cx.formedHere && kids
  else cx.state == .running && kids && (s.tilesOf c).all (fun t => cx.arrivals.any (fun a => a.tile == t)) &&
    (s.huuMembers c).all (fun h => cx.huuArrived.any (fun p => p.1 == h)) && (!cx.needsLk || cx.lkArrived)

/-! ### Lockkeeper arrival and delayed scaling (R39, R422) -/

/-- LOCKKEEPER_ARRIVAL: its delayed-scaling work for the lock is complete (R39). -/
def execLockkeeperArrival (c : Nat) (s : State) : Out :=
  if numCtxs ≤ c then .fault .noSuchUnit
  else
    let cx := s.ctx c
    if cx.state == .running && cx.needsLk && !cx.lkArrived && cx.scalesLeft.isEmpty && s.lk.state ≠ .failed then
      .next (s.setCtx c { cx with lkArrived := true, lkTime := s.now, firstArrival := match cx.firstArrival with
        | some x => some x
        | none => some s.now })
    else .next s

/-- DELAYED_SCALE_WRITE: the new scale of a slot is written into every member tile; a MONITOR event tells of one written after
its time (R422 step 4, R428). -/
def execDelayedScaleWrite (c slot : Nat) (s : State) : Out :=
  if numCtxs ≤ c then .fault .noSuchUnit
  else
    let cx := s.ctx c
    match cx.scalesLeft.find? (fun p => p.1 == slot) with
    | none => .next s
    | some (_, v) =>
      if s.lk.state = .failed then .next s else
      let s := s.setCtx c { cx with scalesLeft := cx.scalesLeft.filter (fun p => p.1 ≠ slot) }
      let s := s.modTilesOf c (fun t => { t with nmScale := Tbl.put 0x7F t.nmScale slot v })
      .next (if s.now ≤ cx.scalesBy then s else
        s.postTenant (c / 4) 0x71 1 cx.eventId (body [(24, 1, slot), (26, 6, cx.scalesDue.getD 0)]))

/-- Slots of a domain under delayed scaling. -/
def State.scaledSlots (s : State) (c : Nat) : List Nat :=
  match (s.tilesOf c).head? with
  | some t => (List.range 16).filter (fun k => (s.tile t).dsEn.getLsbD k)
  | none => []

/-- AMAXE_SNAPSHOT: at the release of N_s every unit snapshots and resets AMAXE, and the scales of step s + 1 are formed
for lock `ce` (R422 steps 2 and 3). -/
def State.snapshotScales (s : State) (c ce : Nat) : State :=
  let gs := s.gransOf c
  let slots := s.scaledSlots c
  let mon (g k : Nat) : MonSlot := Tbl.get {} s.mons (16 * g + k)
  let news := slots.filterMap (fun k =>
    match gs.filterMap (fun g => (mon g k).measured) with
    | [] => none
    | a :: r =>
      let cx := s.ctx c
      let t : Int := r.foldl max a - (Tbl.get 0 cx.dsEmax k : Nat) + Tbl.get 0 cx.dsMargin k + 127
      some (k, (min (max t 0) 254).toNat))
  let s := { s with mons := s.mons.map (fun p =>
    if gs.contains (p.1 / 16) then (p.1, { p.2 with snap := p.2.measured, amaxe := none, measured := none }) else p) }
  if slots.isEmpty then s else s.modCtx c (fun cx => { cx with
    scalesDue := some ce, scalesLeft := news, scalesBy := s.now + 30000 + 200 * gs.length })

/-- A measurement interval begins with the release of C_s: what was tapped since N_s is outside it (R422 step 1). -/
def State.beginInterval (s : State) (c : Nat) : State :=
  let gs := s.gransOf c
  { s with mons := s.mons.map (fun p => if gs.contains (p.1 / 16) then (p.1, { p.2 with measured := none }) else p) }

/-! ### What a fired lock does on every device (R42, R58, R62, R66, R260, R271, R435) -/

/-- At lock C_s an applied step commits and its digests are compared where due; a skipped one ends (R260 step 6, R272). -/
def State.stepCommit (s : State) (c k : Nat) : State :=
  let cx := s.ctx c
  match cx.upd.run with
  | none => s
  | some r =>
    if cx.upd.sweepEnd r.lock ≠ k then s
    else if r.skip then s.setCtx c { cx with upd := { cx.upd with run := none } }
    else
      let u := cx.upd.commit r
      let s := s.setCtx c { cx with upd := u }
      if u.digestN ≠ 0 ∧ r.t % u.digestN = 0 ∧ s.lk.state ≠ .failed then s.compareDigests c else s

/-- IDLE_TOTALS: the region's totals of the seven counters (R55). [DEDUCED: log 53] -/
def State.idleTotals (s : State) (c : Nat) : State :=
  let ts := s.tilesOf c
  s.modCtx c (fun cx => { cx with totals := Vector.ofFn (fun i =>
    BitVec.ofNat 64 ((ts.map (fun t => ((s.tile t).lock.acct.toList.getD i.val 0).toNat)).sum)) })

/-- A release is on its way to this device's members: visible at `at_` (R44, R54, R333). -/
def State.showRelease (s : State) (c at_ : Nat) (r : Release) : State :=
  let s := s.modCtx c (fun cx => { cx with release := some r, visibleAt := at_, huuHold := true })
  s.modTilesOf c (fun t => { t with holdRelease := true })

/-- When a release of fire time `f`, which has come here now, becomes visible (R44, R333, R339): over devices at F + R_rel or its
arrival, whichever is later, and then the 48 ns less what of them has passed since the arrival. -/
def State.visibleTime (s : State) (c f : Nat) : Nat :=
  let cx := s.ctx c
  if !cx.spans then f + 48 else max (s.now + 48) (f + cdiv cx.rRel 1000)

/-- MOVE_TO_ELASTIC: a Timed domain of an image that is not detour-safe, with a member tile on a detoured granule, becomes
Elastic for the remainder of its run (R49, R432). -/
def State.moveElastic (s : State) (c : Nat) : State :=
  let cx := s.ctx c
  if !cx.elastic && cx.tclass == 0 && cx.loaded && cx.state.live && (s.gransOf c).any (fun g => s.isDetoured g) then
    let s := (s.setCtx c { cx with elastic := true, elasticPin := true, movedElastic := true }).measureRegion (c / 4)
    s.domainEvent c 3 0
  else s

/-- A formation command completes once lock 0 is released (R341). -/
def State.formationDone (s : State) (c : Nat) : State :=
  let cx := s.ctx c
  match cx.formation with
  | some f =>
    (s.modCtx c (fun cx => { cx with formation := none })).settle f.fn f.slot stOK 0 0 10
      (packLE [(0, 2, cx.overhead), (2, 4, cdiv cx.rRel 1000), (6, 1, cx.version % 16), (7, 1, cx.version / 16), (8, 2, cx.domainId)])
  | none => s

/-- A STEP command completes when the domain halts again at its lock (R427). -/
def State.stepDone (s : State) (c k : Nat) : State :=
  match (s.ctx c).stepTarget with
  | some (f, sl, l) =>
    if l ≤ k then (s.modCtx c (fun cx => { cx with stepTarget := none })).settle f sl stOK 0 0 6 k else s
  | none => s

/-- A release takes effect on this device: index, counts and gather state; then it is held by HALT, ends the domain by
ABORT, or is shown to the members. -/
def State.takeRelease (s : State) (c : Nat) (r : Release) : State :=
  let r := { r with late := r.late || (s.ctx c).lateAt.contains r.index }
  let s := if r.halt then s.modCtx c (fun cx => { cx with upd := { cx.upd with haltWanted := false } }) else s
  let s := (s.stepCommit c r.index).idleTotals c
  let s := if r.drop then s.dropStaged c else s
  let b := bit r.flags.toNat 30
  let s := s.modCtx c (fun cx =>
    let mbn := if b then cx.mbn + 1 else cx.mbn
    { cx with
      index := r.index, started := true, fireTime := r.fire, state := .running, formedHere := false
      winLow := cx.winLow ||| BitVec.ofNat 4 (bits r.status.toNat 0 4), winHigh := cx.winHigh ||| BitVec.ofNat 4 (bits r.status.toNat 4 4)
      nonfinite := cx.nonfinite ||| BitVec.ofNat 4 (bits r.status.toNat 8 4)
      configMismatch := cx.configMismatch || r.mismatch
      mbn := mbn, boundary := if b ∨ r.index = 0 then some r else cx.boundary
      boundaryMbn := if b ∨ r.index = 0 then mbn else cx.boundaryMbn
      arrivals := [], huuArrived := [], lkArrived := false, childMarkers := [], firstArrival := none, gatherSent := false
      haltReq := false, abortReq := false, lateAt := cx.lateAt.filter (fun l => r.index < l), switching := false
      causes := if cx.recovery.isSome || (cx.spans && s.fabric.drifting) then 32#8 else 0#8
      haltAt := cx.haltAt.filter (fun l => r.index < l), overdueFor := none
      scalesDue := if cx.scalesDue = some r.index then none else cx.scalesDue
      staged := cx.staged.map (fun g => if r.armed then { g with armed := some r.stagedTarget, lateMode := g.lateMode || decide (g.target < r.stagedTarget) } else g)
      traceOn := cx.traceOn || decide (cx.traceAt.any (fun l => decide (l ≤ r.index)))
      traceAt := if cx.traceAt.any (fun l => decide (l ≤ r.index)) then none else cx.traceAt })
  let s := if r.mismatch then s.domainEvent c 4 0 else s
  let s := (if r.index = 0 then s.formationDone c else s).moveElastic c
  if r.abort then s.abortCtx c
  else if r.halt then
    ((s.modCtx c (fun cx => { cx with state := .halted, heldRelease := some r })).domainEvent c 1 0).stepDone c r.index
  else
    let s := s.showRelease c (s.visibleTime c r.fire) r
    if r.index = 2 ^ 48 - 1 then (s.modCtx c (fun cx => { cx with state := .halted })).domainEvent c 1 0 else s

/-! ### Firing (R44, R50, R57, R66, R67) -/

/-- May the root fire the lock being gathered now (R44)? -/
def State.fireReady (s : State) (c : Nat) : Bool :=
  let cx := s.ctx c
  s.isRoot c && s.subtreeIn c && !cx.holdReleases && (cx.state == .running || (cx.state == .forming && !cx.started)) &&
    (!cx.started || (decide (cx.index < 2 ^ 48 - 1) && decide (cx.fireTime + 250 ≤ s.now) &&
      (cx.elastic || decide (cx.fireTime + cx.period ≤ s.now))))

/-- STRETCH_RECORD: a Timed lock of fire time `f` that fires after F_k + P adds to its charged cause, on every member (R50, R52). -/
def State.recordStretch (s : State) (c cause f : Nat) : State :=
  let cx := s.ctx c
  if cx.started && !cx.elastic && decide (cx.fireTime + cx.period < f) then
    let st := f - (cx.fireTime + cx.period)
    if h : cause < 6 then
      s.setCtx c { cx with
        stretchCount := cx.stretchCount.set cause (cx.stretchCount[cause] + 1)
        stretchTime := cx.stretchTime.set cause (cx.stretchTime[cause] + BitVec.ofNat 64 st) }
    else s
  else s

/-- What the root decides of a staged set at the gather of lock `k`. -/
inductive Stage where
  | nothing
  | arm (lock : Nat)
  | mismatch
  deriving DecidableEq, Repr

/-- R66 for a domain over several devices, from the staged state and target at the gather of lock `g`. A set first seen
after T − 2 was staged late by every member; past T − 2 by 16 gathers, members that have not staged it make a mismatch.
[DEDUCED: log 55] -/
def stageDecision (g state target : Nat) : Stage :=
  if state = 0 ∨ g + 2 < target then .nothing
  else if g + 2 = target then (if state = 1 then .arm target else .mismatch)
  else if state = 1 then .arm (g + 2)
  else if state = 3 then .mismatch
  else if 16 + target ≤ g + 2 then .mismatch
  else .nothing

/-- The root's decision for context `c` at lock `k`; a domain on one device arms its set at the firing of T − 1 (R67).
[DEDUCED: log 54] -/
def State.decideStage (s : State) (c k : Nat) (m : GatherMarker) : Stage :=
  let cx := s.ctx c
  match cx.staged with
  | some g => if g.armed.isSome then .nothing
              else if cx.spans then stageDecision k m.stagedState g.target
              else if g.target = k + 1 then .arm (k + 1) else .nothing
  | none => if cx.spans then stageDecision k m.stagedState m.stagedTarget
            else .nothing

/-- Final sums as delivered: presence, status and binary64 values (R61, R62). -/
def finalCargo (cx : Ctx) (m : GatherMarker) : BitVec 12 × Vector DWord 4 :=
  if cx.cargoExact then
    let rd (n : Nat) : Nat × Nat × Win := readPartial binary64 0 false (winOfBits (m.cargo.toList.getD n 0).toNat) (cx.slotExp n)
    (m.status ||| BitVec.ofNat 12 (pack ((List.range 4).map (fun n => (4 + n, 1, b2n (rd n).2.2.high)))),
     Vector.ofFn (fun n => if m.presence.getLsbD n.val then BitVec.ofNat 64 (rd n.val).1 else 0))
  else (m.status, Vector.ofFn (fun n => if m.presence.getLsbD n.val then BitVec.ofNat 64 (m.cargo.toList.getD n.val 0).toNat else 0))

/-- Lock 0 with differing configurations: the domain returns to STOPPED and formation fails (R343). -/
def State.failFormation (s : State) (c status : Nat) : State :=
  let cx := s.ctx c
  let s := match cx.formation with
    | some f => s.settle f.fn f.slot status 0 0 0 0
    | none => s
  s.modCtx c (fun cx => { cx with
    state := .stopped, formation := none, formedHere := false, childMarkers := [], gatherSent := false
    configMismatch := cx.configMismatch || decide (status = stMismatch) })

/-- FORMED with a failure status goes down the tree (R341 step 5). -/
def State.formedDown (s : State) (c status : Nat) : State :=
  let cx := s.ctx c
  (s.childTrunks c).foldl (fun s t => if t = 6 then s else s.sendLink t (linkUnit lFORMED
    [(0, 2, cx.domainId), (2, 2, status), (4, 2, cx.overhead), (6, 4, cx.rRel), (10, 1, cx.version), (12, 4, cx.imageValue)])) s

/-- The root fires the lock being gathered with the combined gather: the sums are read under the mode they were gathered in, the
set armed for it commits, and its release shows the digest armed or committed (R44, R56, R62, R66, R68). -/
def State.fireLock (s : State) (c : Nat) : State :=
  let cx := s.ctx c
  let k := cx.gathering
  let m := s.gatherOf c
  if m.mismatch && !cx.started then
    ((s.formedDown c stMismatch).failFormation c stMismatch).domainEvent c 4 0
  else
    let s := s.recordStretch c m.cause s.now
    let fin := finalCargo cx m
    let decision := s.decideStage c k m
    -- a set armed for this lock commits first (R68)
    let commit := match cx.staged with
      | some g => g.armed == some k
      | none => false
    let late := commit && (cx.staged.map Staged.lateMode).getD false
    let s := match cx.staged with
      | some g => if g.armed = some k then s.commitStaged c k g else s
      | none => s
    let cx' := s.ctx c
    let armAt := match decision with
      | .arm l => some l
      | _ => none
    let r : Release := {
      index := k, fire := s.now, cause := m.cause, epoch := cx'.epoch, digest := cx'.digest
      stagedDigest := if commit then (cx.staged.map Staged.digest).getD 0 else if armAt.isSome then m.stagedDigest else 0
      stagedTarget := if commit then k else armAt.getD 0
      halt := m.halt || m.mismatch, abort := m.abort, armed := armAt.isSome, commit := commit, flags := m.flags
      presence := m.presence, status := fin.1, cargo := fin.2, mismatch := m.mismatch, drop := decision == .mismatch
      late := late }
    (s.releaseDown c r).takeRelease c r

/-- LOCK_FIRE: the root fires the lock being gathered once R44 allows it. -/
def execLockFire (c : Nat) (s : State) : Out :=
  if numCtxs ≤ c then .fault .noSuchUnit
  else if s.fireReady c then .next (s.fireLock c) else .next s

/-! ### Release to the members (R54, R59, R70, R170) -/

/-- The lock block of a tile at a release (R70). -/
def LockBlock.released (l : LockBlock) (r : Release) : LockBlock :=
  { l with
    index := BitVec.ofNat 48 r.index, cargo := r.cargo, flagsIn := r.flags
    committed := l.committed || r.commit, late := l.late || r.late
    winLow := BitVec.ofNat 4 (bits r.status.toNat 0 4), winHigh := BitVec.ofNat 4 (bits r.status.toNat 4 4)
    nonfinite := BitVec.ofNat 4 (bits r.status.toNat 8 4) }

/-- The release becomes visible to a tile: LOCK completes, or the program begins (R70, R170, R182). -/
def Tile.release (t : Tile) (r : Release) (now : Nat) : Tile :=
  let t := { t with lock := t.lock.released r, retryCause := 0, arrived := false, holdRelease := false, releaseAt := now }
  match t.core.act with
  | .lockStall => t.completes t.gen (t.core.pc.toNat + 1) 2
  | .off => { t with core := { t.core with act := .run, stopReq := false, stop := if t.core.stopReq then some .stop else t.core.stop } }
  | _ => t

/-- A barge of a PORT_OUT stream of the wharf: a flit's payload, or a SECTEND (R329). -/
def State.portOut (s : State) (g i : Nat) (f : Option Flit) : Barge :=
  let e := (s.wharf g).wst i
  let ten := (s.tenantOfGran g).getD 0
  { ty := 4, tenant := ten, src := g, dst := wstPep e, stream := i, payload := (f.map Flit.payload).getD 0
    bad := (f.map Flit.bad).getD 0, sect := f.isNone, port := wstPix e, circuit := bits e.toNat 142 12
    ctx := 4 * ten + bits e.toNat 154 2 }

/-- Flits of a stream that wait in the wharf's queue. -/
def Wharf.ahead (w : Wharf) (i : Nat) : Nat := (w.inq.filter (fun x => w.dataOf x.2.1.ch == some i)).length

/-- SECTEND_PLACE: each PORT_OUT circuit of a domain's wharves carries a SECTEND at the release, after the flits that its wharf has
accepted before it (R329). [DEDUCED: log 67] -/
def State.placeSectends (s : State) (c : Nat) : State :=
  (s.gransOf c).foldl (fun s g =>
    let w := s.wharf g
    let outs := (w.streams.filter (fun p => wstValid p.2 && wstKind p.2 == 2 && !isLoop p.2 && (s.portOut g p.1 none).ctx == c)).map Prod.fst
    let (late, now) := outs.partition (fun i => decide (0 < w.ahead i))
    let s := if late.isEmpty then s else s.setWharf g { w with sects := w.sects ++ late.map (fun i => (i, w.ahead i)) }
    if now.isEmpty then s else s.queueBarges g (now.map (fun i => s.portOut g i none))) s

/-- The release becomes visible to the HUUs and wharves of the domain. -/
def State.releaseUnits (s : State) (c : Nat) (r : Release) : State :=
  let cx := s.ctx c
  let s := s.setCtx c { cx with huuIndex := r.index, huuHold := false }
  let s := if 1 ≤ r.index ∧ !r.replay then s.placeSectends c else s
  let s := s.whippetSeal c r
  let s := if cx.upd.lstep ≠ 0 ∧ r.index + cx.upd.lstep = cx.upd.sweepEnd cx.upd.nextN ∧ !r.replay then s.beginInterval c else s
  if cx.upd.lstep ≠ 0 ∧ r.index = cx.upd.nextN ∧ !r.replay then
    (s.snapshotScales c (cx.upd.sweepEnd r.index)).stepPrologue c r
  else s

/-- LOCK_RELEASE: the release becomes visible to member `m`, a tile, or 9,216 for the HUUs and wharves (R70). -/
def execLockRelease (c m : Nat) (s : State) : Out :=
  if numCtxs ≤ c ∨ numTiles < m then .fault .noSuchUnit
  else
    let cx := s.ctx c
    match cx.release with
    | none => .next s
    | some r =>
      if s.now < cx.visibleAt then .next s
      else if m = numTiles then (if cx.huuHold then .next (s.releaseUnits c r) else .next s)
      else
        let tl := s.tile m
        if tl.home = some c ∧ tl.holdRelease ∧ s.tileClocked m then
          .next (((s.setTile m (tl.release r s.now)).trace m 2 0 0).stopEvent m)
        else .next s

/-! ### Overdue locks (R53) -/

/-- Members that have not arrived, as DOMAIN events name them: granules, HUUs, devices (R402). -/
def State.missing (s : State) (c : Nat) : List Nat :=
  let cx := s.ctx c
  let tiles := (s.tilesOf c).filter (fun t => !cx.arrivals.any (fun a => a.tile == t))
  let huus := (s.huuMembers c).filter (fun h => !cx.huuArrived.any (fun p => p.1 == h))
  let kids := (s.childTrunks c).filter (fun t => !cx.childMarkers.any (fun m => m.trunk == t))
  (tiles.map granOf).eraseDups ++ huus.map (fun h => 2 ^ 14 + h) ++
    kids.map (fun t => 2 ^ 15 + ((s.trunkPort t).map (fun p => (s.port p).partner)).getD 0)

/-- LOCK_OVERDUE: a lock not fired within the stretch limit of its overdue point is reported once (R53). -/
def execLockOverdue (c : Nat) (s : State) : Out :=
  if numCtxs ≤ c then .fault .noSuchUnit
  else
    let cx := s.ctx c
    let k := cx.gathering
    let start := if cx.elastic then cx.firstArrival else if cx.started then some (cx.fireTime + cx.period) else none
    match start with
    | none => .next s
    | some t0 =>
      if cx.state == .running && s.isRoot c && decide (t0 + 1000 * cx.stretchLimit < s.now) && cx.overdueFor != some k then
        let l := (s.missing c).take 16
        let more := body ((30, 1, l.length) :: (l.zip (List.range 16)).map (fun p => (32 + 2 * p.2, 2, p.1)))
        let s := s.setCtx c { cx with overdue := true, overdueFor := some k }
        let b := body [(24, 6, k)] + more
        let s := s.postTenant (c / 4) 0x10 2 cx.eventId b
        .next (s.postNum 0 (s.event 0x10 2 (c / 4) cx.eventId b))
      else .next s

end Sys2Proof.Machine
end

