-- ==== Sys2Proof/Machine/Profile.lean ====
section
/-! DEFINITION. Profiles: the record and its limits, and what applying one changes (R497 to R499). -/

namespace Sys2Proof.Machine

/-- The byte string of a profile record as a number. -/
abbrev Profile := BitVec 8192

def Profile.field (p : Profile) (off n : Nat) : Nat := fieldLE p.toNat off n
/-- A field that takes a default where it is zero (R497). -/
def Profile.orDefault (p : Profile) (off n d : Nat) : Nat := if p.field off n = 0 then d else p.field off n

def Profile.cap (p : Profile) : Nat := p.orDefault 8 4 23000
def Profile.ceiling (p : Profile) : Nat := p.orDefault 12 1 40
def Profile.lend (p : Profile) : Nat := p.orDefault 16 4 4000
def Profile.reserve (p : Profile) : Nat := p.orDefault 20 2 64
def Profile.syncQ (p : Profile) : Nat := p.orDefault 22 1 42
def Profile.loopQps (p : Profile) : Nat := p.orDefault 24 4 4096
def Profile.stretch (p : Profile) : Nat := p.orDefault 28 4 10000000
/-- Is a Giore (0 to 47) or Basin (48 to 55) port enabled? A mask left zero enables every port. -/
def Profile.portOn (p : Profile) (i : Nat) : Bool :=
  if i < 48 then p.field 32 8 == 0 || bit (p.field 32 8) i else p.field 41 1 == 0 || bit (p.field 41 1) (i - 48)
def Profile.loopOn (p : Profile) (l : Nat) : Bool := p.field 40 1 == 0 || bit (p.field 40 1) l
/-- Byte `o` on of Loop port l's configuration. -/
def Profile.loopField (p : Profile) (l o n : Nat) : Nat := p.field (64 + 64 * l + o) n

/-- CRC-32C of bytes 0 to 1,019, without the zero substitution (R65, R497). -/
def Profile.crc (p : Profile) : Nat := crc32c (bytesLE 1020 p.toNat)

/-- The default profile `i`. -/
def Profile.default (i : Nat) : Profile :=
  let v := packLE [(0, 4, 0x4650574C), (4, 1, 2), (5, 1, i)]
  BitVec.ofNat 8192 (v + crc32c (bytesLE 1020 v) * 2 ^ 8160)

/-- A field that is zero or within its limits. -/
def inLimits (v lo hi : Nat) : Bool := v == 0 || (decide (lo ≤ v) && decide (v ≤ hi))

/-- Are the bytes of a Loop port's configuration within their limits? An MTU of 0 takes the default. -/
def Profile.loopOk (p : Profile) (l : Nat) : Bool :=
  decide (p.loopField l 0 1 < 8) && decide (p.loopField l 1 1 ≤ 7) && [0, 1024, 2048, 4096].contains (p.loopField l 2 2) &&
  decide (p.loopField l 8 1 ≤ 32) && decide (p.loopField l 9 1 ≤ 128) && decide (p.loopField l 10 2 ≤ 4095) &&
  p.loopField l 12 4 == 0 && p.loopField l 32 32 == 0

/-- Does profile `i` pass its CRC and hold every field within its limits (R497, R498)? -/
def Profile.ok (p : Profile) (i : Nat) : Bool :=
  p.field 1020 4 == p.crc && p.field 0 4 == 0x4650574C && p.field 4 1 == 2 && p.field 5 1 == i && p.field 6 2 == 0 &&
  inLimits (p.field 8 4) 8000 23000 && decide (p.field 12 1 ≤ 40) && p.field 13 3 == 0 && inLimits (p.field 16 4) 250 1000000 &&
  inLimits (p.field 20 2) 16 256 && decide (p.field 22 1 ≤ 42) && p.field 23 1 == 0 && decide (p.field 24 4 ≤ 4096) &&
  decide (p.field 28 4 ≤ 67108863) && decide (p.field 32 8 < 2 ^ 48) && p.field 42 22 == 0 && p.field 576 444 == 0 &&
  (List.range 8).all p.loopOk

/-- Stored profile `i`; the default profile where the settings area holds its defaults, or is left aside (R495). -/
def State.storedProfile (s : State) (i : Nat) : Profile :=
  if s.boot.defaulted.contains 1 then Profile.default i else Tbl.get (Profile.default i) s.nv.profiles i

/-- The port configuration that Loop port `l` takes from a profile (R418, R497). -/
def LoopPort.configure (l : Nat) (p : Profile) (x : LoopPort) : LoopPort :=
  { x with pfc := bit (p.loopField l 0 1) 2, prio := BitVec.ofNat 3 (p.loopField l 1 1) }

/-- PROFILE event (R508). [DEDUCED: log 98] -/
def State.profileEvent (s : State) (sub applied source named : Nat) : State :=
  s.postPF 0x64 sub (body [(24, 1, applied), (25, 1, source), (26, 1, named)])

/-- Is the unit's port present: its I/O die is on and the profile in force enables it? -/
def State.portOn (s : State) (p : Nat) : Bool :=
  let east := decide (p < 24) || (decide (48 ≤ p) && decide (p < 52))
  s.power.pdOn.getLsbD (if east then 18 else 19) && Profile.portOn s.boot.profile p
def State.loopOnNow (s : State) (l : Nat) : Bool :=
  s.power.pdOn.getLsbD (if l < 4 then 18 else 19) && Profile.loopOn s.boot.profile l

end Sys2Proof.Machine
end

