-- ==== Sys2Proof/Machine/Port.lean ====
section
/-! DEFINITION. Giore and Basin ports (12_multi_device.md): blocks and retry, slot frames and credits, training and the
time base, and the units that carry data, Basin messages and credits. -/

namespace Sys2Proof.Machine

def numPorts : Nat := 56
/-- A port's number in events and registers (R406): G00 to G47, then B0 to B7 at 56. -/
def portNumber (p : Nat) : Nat := if p < 48 then p else p + 8
def State.portEvent (s : State) (p sub : Nat) : State := s.postPF 0x32 sub (body [(24, 1, portNumber p)])

/-- Canal endpoint of the optical I/O die that holds a port (R523). -/
def portEndpoint (p : Nat) : Nat := if p < 24 then 608 + p / 4 else if p < 48 then 616 + (p - 24) / 4 else basinEndpoint (p - 48)

/-- Port of a fabric I/O die and PIX. -/
def fabricPort (ep pix : Nat) : Nat := if ep < 614 then 4 * (ep - 608) + pix else 24 + 4 * (ep - 616) + pix

/-- Is the endpoint a fabric I/O die? -/
def isFabricEp (ep : Nat) : Bool := (decide (608 ≤ ep) && decide (ep < 614)) || (decide (616 ≤ ep) && decide (ep < 622))

def psCrc : Nat := 0
def psReplay : Nat := 1
def psRetrain : Nat := 2
def psOwnerDrop : Nat := 3
def psOverrun : Nat := 4
def psTimeDrift : Nat := 5
def psWiring : Nat := 6
def psVersion : Nat := 7

/-- Sets a flag of GPORT_STATUS. -/
def GPort.flag (q : GPort) (i : Nat) : GPort := { q with status := q.status ||| BitVec.ofNat 8 (2 ^ i) }

/-- Enters a training state. -/
def GPort.enter (q : GPort) (st : LinkState) (now : Nat) : GPort :=
  { q with state := st, stateSince := now, width := if st = .down ∨ st = .failed then 0 else q.width }

/-! ### Failure of a port (R445) -/

/-- Units that a block or a queue of a failed port still owes, without its LINK units. -/
def ownedUnits (l : List (Nat × LinkUnit)) : List LinkUnit := (l.map Prod.snd).filter (fun u => u.kind != kLINK && u.kind != kMarkerA && u.kind != kMarkerB)

/-- GIORE_PORT_FAIL: the port is out of use; a fabric port's pairs move at once to the live port of lowest index, which
reports the last block accepted, and its units move once the partner has reported likewise (R445). -/
def State.portFail (s : State) (p : Nat) : State :=
  let s := (s.modPort p (fun q => q.enter .failed s.now)).capChangeAll
  if 48 ≤ p then s
  else
    match s.trunkPort (trunkOf p) with
    | none => s.postPF 0x40 5 (body [(24, 1, 5), (26, 2, portNumber p), (38, 1, s.detoured.length)])
    | some n =>
      let old := s.port p
      let owners := (old.gmptTx.map (fun e => bits e.2.toNat 0 16)).eraseDups
      let s := owners.foldl (fun s id =>
        let k := (old.gmptTx.filter (fun e => bits e.2.toNat 0 16 == id)).length
        if (s.port n).gmptTx.any (fun e => bits e.2.toNat 0 16 == id) then s else s.modPort n (fun q => q.givePairs id k)) s
      let s := s.modPort n (fun q => { q with sysq := q.sysq ++ [linkUnit lPortMove [(0, 1, p), (2, 2, old.rxSeq)]] })
      let s := { s with fabric := { s.fabric with moving := s.fabric.moving.set p n } }
      s.postPF 0x40 5 (body [(24, 1, 5), (26, 2, portNumber p), (38, 1, s.detoured.length)])

/-- The port that now carries what a port carried. -/
def State.homePort (s : State) (p : Nat) : Nat := (s.fabric.moved.find p).getD p

/-! ### Blocks (R317, R320 to R322) -/

/-- The 80 tags and then the 80 bodies of a block, as bytes; a position without a unit is IDLE (R316). -/
def blockBytes (us : List (Nat × LinkUnit)) : List Byte :=
  let at_ (i : Nat) : Option LinkUnit := (us.find? (fun x => x.1 == i)).map Prod.snd
  (List.range 80).flatMap (fun i => bytesLE 2 (((at_ i).map (fun u => u.kind % 16 + 16 * (u.index % 4096))).getD 0)) ++
  (List.range 80).flatMap (fun i => bytesLE 64 (((at_ i).map (fun u => u.body.toNat)).getD 0))

/-- The units of a block given as (position, kind, index, body), without IDLE ones. -/
def blockUnits (units : List (Nat × Nat × Nat × Nat)) : List (Nat × LinkUnit) :=
  (units.filter (fun u => u.2.1 ≠ 0 ∧ u.1 < 80)).map (fun u =>
    (u.1, ({ kind := u.2.1 % 16, index := u.2.2.1 % 4096, body := BitVec.ofNat 512 u.2.2.2 } : LinkUnit)))

/-- CRC of a block: over its tags, its bodies and bits [127:0] of its link control word (R317). -/
def blockCrc (us : List (Nat × LinkUnit)) (low : Nat) : Nat := crc32c (blockBytes us ++ bytesLE 16 low)

/-- Bits [127:0] of a link control word (R317). -/
def controlLow (seq ack : Nat) (nak replay retrain : Bool) (tstamp : Nat) : Nat :=
  pack [(0, 12, seq), (12, 12, ack), (24, 1, b2n nak), (25, 1, b2n replay), (26, 2, b2n retrain), (32, 64, tstamp)]

/-- The link control word of a block that leaves the port at `now` (R317). -/
def GPort.control (q : GPort) (b : Block) (replay : Bool) (now : Nat) : BitVec 160 :=
  let low := controlLow b.seq q.rxSeq q.sendNak replay q.retrainStart.isSome now
  BitVec.ofNat 160 (low + blockCrc b.units low * 2 ^ 128)

/-- A block goes out on the link; the control word carries a NAK that is due (R317, R320). -/
def GPort.sendBlock (q : GPort) (b : Block) (replay : Bool) (now : Nat) : GPort :=
  { q with wire := q.wire ++ [(b, q.control b replay now)], sendNak := false }

/-- Blocks that take room in the replay buffer. -/
def GPort.buffered (q : GPort) : Nat := (q.replay.filter (fun b => !b.idle)).length

/-- Is the replay buffer full (R320)? -/
def GPort.full (q : GPort) : Bool := decide (64 ≤ q.buffered)

/-- May blocks flow in the state (R336)? -/
def LinkState.carries : LinkState → Bool
  | .negotiate | .delay | .tables | .up => true
  | _ => false

/-- The blocks that an acknowledgement of `ack` leaves in the replay buffer. -/
def ackBlocks (ack : Nat) (l : List Block) : List Block :=
  if l.any (fun b => b.seq == ack) then ((l.dropWhile (fun b => b.seq != ack)).drop 1) else l

/-- ACK and NAK of a link control word (R320, R322). -/
def GPort.acked (q : GPort) (ack : Nat) (nak : Bool) (now : Nat) : GPort :=
  let left := ackBlocks ack q.replay
  let q := if left.length < q.replay.length then { q with replay := left, ackAt := now } else q
  if nak then { q with replayFrom := some ack, nakCount := if q.nakAck = ack then q.nakCount + 1 else 1, nakAck := ack }
  else { q with nakCount := 0 }

/-- BLOCK_REPLAY: after a NAK every block after ACK is sent again with REPLAY, the same units in the same positions (R320). -/
def execBlockReplay (p : Nat) (s : State) : Out :=
  if numPorts ≤ p then .fault .noSuchUnit
  else
    let q := s.port p
    match q.replayFrom with
    | some ack =>
      if q.state == .up then
        let q := { q.flag psReplay with replayFrom := none, wire := [] }
        .next (s.setPort p ((ackBlocks ack q.replay).foldl (fun q b => q.sendBlock b true s.now) q))
      else .next s
    | none => .next s

/-- ACK_TIMEOUT: eight NAKs of one ACK, or 100 µs without progress, retrain the port from ALIGN (R322). -/
def execAckTimeout (p : Nat) (s : State) : Out :=
  if numPorts ≤ p then .fault .noSuchUnit
  else
    let q := s.port p
    if q.state == .up && (decide (8 ≤ q.nakCount) || (!q.replay.isEmpty && decide (q.ackAt + 100000 ≤ s.now))) then
      .next (s.setPort p { (q.flag psRetrain).enter .align s.now with retrainStart := some s.now, nakCount := 0 })
    else .next s

/-- RETRAIN_TIMEOUT: a retraining that is not UP within 1 ms is a port fault (R322). -/
def execRetrainTimeout (p : Nat) (s : State) : Out :=
  if numPorts ≤ p then .fault .noSuchUnit
  else
    let q := s.port p
    match q.retrainStart with
    | some t =>
      if q.state != .up && q.state != .failed && decide (t + 1000000 ≤ s.now) then
        .next ((s.setPort p { q with retrainStart := none }).portFail p)
      else .next s
    | none => .next s

/-! ### Training (R336, R337) -/

/-- LOSS_OF_SIGNAL: the port returns to SIGNAL (R336). -/
def execLossOfSignal (p : Nat) (s : State) : Out :=
  if numPorts ≤ p then .fault .noSuchUnit
  else
    let q := s.port p
    if q.state == .down || q.state == .failed || q.state == .signal then .next s
    else .next (s.setPort p { q.enter .signal s.now with width := 0, signalLostAt := some s.now })

/-- SIGNAL_DETECTED: equalisation completes with `w` healthy lanes and the port enters ALIGN (R336, R444). -/
def execSignalDetected (p w : Nat) (s : State) : Out :=
  if numPorts ≤ p then .fault .noSuchUnit
  else
    let q := s.port p
    if s.portOn p && (q.state == .down || q.state == .signal) && (w == 4 || w == 2 || w == 1) then
      .next (s.setPort p { q.enter .align s.now with width := w, signalLostAt := none })
    else .next s

/-- The HELLO of this device (R337). -/
def helloUnit (s : State) (p : Nat) : LinkUnit :=
  linkUnit lHELLO [(0, 1, 0), (1, 1, 1), (2, 1, 1), (3, 1, 2), (4, 2, s.fabric.devid),
    (6, 1, if p < 48 then p else 0x80 + (p - 48)), (7, 1, 0), (8, 8, Config.serial.toNat)]

/-- ALIGN_LOCK: codeword, deskew and block lock complete; the port enters NEGOTIATE and sends HELLO (R336, R337). -/
def execAlignLock (p : Nat) (s : State) : Out :=
  if numPorts ≤ p then .fault .noSuchUnit
  else
    let q := s.port p
    if q.state == .align then
      .next (s.setPort p { q.enter .negotiate s.now with rxReplayWait := false, helloAt := s.now, sysq := q.sysq ++ [helloUnit s p] })
    else .next s

/-- The head of a port's received units, where it is a LINK unit of a subtype. -/
def GPort.headLink (q : GPort) (sub : Nat) : Option (Nat × LinkUnit) :=
  match q.rxq with
  | (sl, _, u) :: _ => if u.kind = kLINK ∧ u.index = sub then some (sl, u) else none
  | [] => none

/-- The head of a port's received units, where it is of a kind: slot, carried by a replay, unit. -/
def GPort.headKind (q : GPort) (k : Nat) : Option (Nat × Bool × LinkUnit) :=
  match q.rxq with
  | x :: _ => if x.2.2.kind = k then some x else none
  | [] => none

/-- The head unit is done. -/
def GPort.pop (q : GPort) : GPort := { q with rxq := q.rxq.drop 1 }

/-- The version both ends support, major × 256 + minor: this device offers 1.0 to 2.1 (R337). -/
def commonVersion (b : Nat) : Option Nat :=
  let lo := fieldLE b 1 1 * 256 + fieldLE b 0 1
  let hi := fieldLE b 3 1 * 256 + fieldLE b 2 1
  [0x201, 0x200, 0x101, 0x100].find? (fun v => decide (lo ≤ v) && decide (v ≤ hi))

/-- Does the partner of a HELLO stand where the wiring rule wants it (R337)? -/
def State.wiringOk (s : State) (p b : Nat) : Bool :=
  let port := fieldLE b 6 1
  let kind := fieldLE b 7 1
  let dev := bits (fieldLE b 4 2) 0 14
  if 48 ≤ p then kind == 2
  else decide (kind ≤ 1) && (port == (p + 24) % 48) &&
    (trunkPorts (trunkOf p)).all (fun r => r == p || (s.port r).state != .up || (s.port r).partner == dev)

/-- LINK_HELLO: in NEGOTIATE a HELLO fixes version and partner, or leaves the port there with WIRING or VERSION (R337). -/
def execLinkHello (p : Nat) (s : State) : Out :=
  if numPorts ≤ p then .fault .noSuchUnit
  else
    let q := s.port p
    match q.headLink lHELLO with
    | none => .next s
    | some (_, u) =>
      let q := q.pop
      let b := u.body.toNat
      if q.state != .negotiate then .next (s.setPort p q)
      else if !s.wiringOk p b then .next ((s.setPort p (q.flag psWiring)).portEvent p 1)
      else match commonVersion b with
        | none => .next ((s.setPort p (q.flag psVersion)).portEvent p 2)
        | some v => .next (s.setPort p { q.enter .delay s.now with
            vmajor := v / 256, vminor := v % 256, partner := bits (fieldLE b 4 2) 0 14, pport := fieldLE b 6 1 })

/-- DELAY_MEASURED: the fibre delay of `f` ns is recorded and held against FABRIC_FMAX (R336, R338). -/
def execDelayMeasured (p f : Nat) (s : State) : Out :=
  if numPorts ≤ p then .fault .noSuchUnit
  else
    let q := s.port p
    if q.state != .delay then .next s
    else if s.fabric.fmax < f then .next ((s.setPort p { q with fdelay := f % 4096 }).portEvent p 4)
    else .next (s.setPort p { q.enter .tables s.now with fdelay := f % 4096 })

/-- TRAINING_TIMEOUT: ALIGN falls back to SIGNAL after 1 ms; the other states stay where they are (R336). -/
def execTrainingTimeout (p : Nat) (s : State) : Out :=
  if numPorts ≤ p then .fault .noSuchUnit
  else
    let q := s.port p
    let bound := match q.state with
      | .signal => some 250000000
      | .align => some 1000000
      | .negotiate => some 100000
      | .delay => some 100000
      | .tables => some 100000
      | _ => none
    match bound with
    | none => .next s
    | some b =>
      if s.now < q.stateSince + b then .next s
      else if q.state == .align then .next (s.setPort p (q.enter .signal s.now))
      else .next (s.setPort p { q with stateSince := s.now })

/-! ### Sending units (R323 to R326) -/

/-- A block is complete: it goes out, and joins the replay buffer (R320). -/
def GPort.closeBlock (q : GPort) (now : Nat) : GPort :=
  let b : Block := { seq := q.txSeq, units := q.filling, idle := q.full && q.filling.isEmpty }
  { q.sendBlock b false now with replay := q.replay ++ [b], txSeq := (q.txSeq + 1) % 4096, filling := [] }

/-- The frame moves on `n` positions; blocks that end are closed. -/
def GPort.advance (q : GPort) (now : Nat) : Nat → GPort
  | 0 => q
  | n + 1 =>
    let q := { q with slotPos := q.slotPos + 1 }
    (if q.slotPos % 80 = 0 then q.closeBlock now else q).advance now n

/-- A unit, or none, in the next position. [DEDUCED: log 64] -/
def GPort.put (q : GPort) (now : Nat) (u : Option LinkUnit) : GPort :=
  ({ q with filling := q.filling ++ (u.map (fun x => (q.slotPos % 80, x))).toList }).advance now 1

/-- Slots of an owner in a frame of a direction. -/
def ownedSlots (t : Tbl (BitVec 32)) (id : Nat) : Nat := (t.filter (fun e => bits e.2.toNat 0 18 == id + 2 ^ 16)).length

/-- Does the sender hold a credit for the owner: fewer than 16 × m units not yet freed (R325)? -/
def GPort.hasCredit (q : GPort) (id : Nat) : Bool := decide (Tbl.get 0 q.creditUsed id < 16 * ownedSlots q.fsltTx id)

/-- A CREDIT unit of up to 16 freed owners (R318, R325), and the counts left. -/
def GPort.creditUnit (q : GPort) : LinkUnit × GPort :=
  let l := (q.freed.filter (fun e => e.2 ≠ 0)).take 16
  (linkUnit lCREDIT ((l.zip (List.range 16)).flatMap (fun x => [(4 * x.2, 4, x.1.1 + min x.1.2 1023 * 2 ^ 16)])),
   { q with freed := l.foldl (fun t e => Tbl.put 0 t e.1 (e.2 - min e.2 1023)) q.freed })

/-- The Basin message of a request under a tag (R317, R319). -/
def basinMessage (b : Barge) (tag : Nat) : Nat :=
  pack [(0, 4, b.ty), (4, 8, b.tenant), (12, 12, tag), (24, 6, if b.ty = 1 then b.count else 0),
        (33, 8, if b.ty = 2 then b.wmask.toNat else 0), (41, 35, b.line)]

/-- A free Basin tag of a port, within the tenant's share of its tags (R241, R354, R359). -/
def State.freeTag (s : State) (b ten : Nat) : Option Nat :=
  if (s.fabric.tags.filter (fun e => e.1 / 4096 == b && e.2.req.tenant == ten)).length < 4096 * (s.tenant ten).basin / 464 then
    (List.range 4096).find? (fun t => (s.fabric.tags.find (4096 * b + t)).isNone)
  else none

/-- The next waiting request of a tenant at a Basin port takes a tag and becomes units of the tenant's queue. -/
def State.tagRequest (s : State) (p ten : Nat) : State :=
  let q := s.port p
  match takeFirst (fun b => b.tenant == ten) q.breqs, s.freeTag (p - 48) ten with
  | some (b, rest), some tag =>
    let msg : LinkUnit := { kind := kBMSG, index := 0, body := BitVec.ofNat 512 (basinMessage b tag) }
    let us := if b.ty = 1 then [msg] else [msg, { kind := kBDATA, index := tag, body := b.payload }]
    let s := s.setPort p { q with breqs := rest, queues := q.queues.set ten us }
    { s with fabric := { s.fabric with tags := s.fabric.tags.set (4096 * (p - 48) + tag) { req := b, skip := b.taken } } }
  | _, _ => s

/-- The gather marker of a domain whose subtree on this device has arrived, toward its parent (R332). [DEDUCED: log 65] -/
def State.gatherUp (s : State) (t id : Nat) : State :=
  match s.ctxOfDomain id with
  | none => s
  | some c =>
    let cx := s.ctx c
    if s.parentTrunk c = some t ∧ s.subtreeIn c ∧ !cx.gatherSent ∧ !cx.holdReleases then
      (s.modCtx c (fun cx => { cx with gatherSent := true })).sendMarker t id
        (encGather id s.fabric.devid (s.gatherOf c).exact (decide (2 ≤ (s.port (8 * t)).vmajor)) (s.gatherOf c))
    else s

/-- The next marker pair of the domain that owns pair `j`. -/
def State.takeMarker (s : State) (p j : Nat) : State × Option (LinkUnit × LinkUnit) :=
  match (s.port p).gmptTx.find j with
  | none => (s, none)
  | some e =>
    let id := bits e.toNat 0 16
    let t := trunkOf p
    let s := s.gatherUp t id
    let k := 65536 * t + id
    match Tbl.get [] s.fabric.markers k with
    | [] => (s, none)
    | m :: r => ({ s with fabric := { s.fabric with markers := if r.isEmpty then s.fabric.markers.del k else s.fabric.markers.set k r } }, some m)

/-- The next LINK unit of a port: its own, a HELLO each 10 µs while in NEGOTIATE (R337), its trunk's, then credits to return. -/
def State.takeLink (s : State) (p : Nat) : State × Option LinkUnit :=
  let q := s.port p
  let t := trunkOf p
  match q.sysq with
  | u :: r => (s.setPort p { q with sysq := r }, some u)
  | [] =>
    if q.state == .negotiate && decide (q.helloAt + 10000 ≤ s.now) then
      (s.setPort p { q with helloAt := s.now }, some (helloUnit s p))
    else if q.state != .up then (s, none)
    else match Tbl.get [] s.fabric.links t with
      | u :: r => ({ s with fabric := { s.fabric with links := if r.isEmpty then s.fabric.links.del t else s.fabric.links.set t r } }, some u)
      | [] =>
        if q.freed.any (fun e => e.2 ≠ 0) then
          let (u, q) := q.creditUnit
          (s.setPort p q, some u)
        else (s, none)

/-- The next unit of the owner of a slot, where it holds a credit (R324, R325). -/
def State.takeOwned (s : State) (p slot : Nat) : State × Option LinkUnit :=
  match (s.port p).fsltTx.find slot with
  | none => (s, none)
  | some e =>
    let id := bits e.toNat 0 16
    let s := if 48 ≤ p ∧ (Tbl.get [] (s.port p).queues id).isEmpty then s.tagRequest p id else s
    let q := s.port p
    match Tbl.get [] q.queues id with
    | [] => (s, none)
    | u :: r =>
      if q.hasCredit id then
        (s.setPort p { q with queues := if r.isEmpty then q.queues.del id else q.queues.set id r
                              creditUsed := q.creditUsed.set id (Tbl.get 0 q.creditUsed id + 1) }, some u)
      else (s, none)

/-- UNIT_SEND: the frame moves to the next occurrence of `slot`, which carries a unit of its owner, a marker pair, a LINK
unit, or stays IDLE (R323 to R326). A full replay buffer leaves every slot IDLE, and a replay that is asked for goes first (R320). -/
def execUnitSend (p slot : Nat) (s : State) : Out :=
  if numPorts ≤ p ∨ 512 ≤ slot then .fault .noSuchUnit
  else
    let q := s.port p
    let skip := (slot + 512 - q.slotPos % 512) % 512
    if !q.state.carries || (q.state == .up && q.replayFrom.isSome) then .next s
    else
      let up := q.state == .up
      let idle (s : State) : Out := .next (s.modPort p (fun q => q.put s.now none))
      let s := s.setPort p (({ q with wire := [] }).advance s.now skip)
      if (s.port p).full then idle s
      else if slot % 32 = 16 then
        let (s, u) := s.takeLink p
        .next (s.modPort p (fun q => q.put s.now u))
      else if slot % 32 = 0 then
        if up then
          match s.takeMarker p (slot / 32) with
          | (s, some (a, b)) => .next (s.modPort p (fun q => (q.put s.now (some a)).put s.now (some b)))
          | (s, none) => idle s
        else idle s
      else if slot % 32 = 1 ∨ !up then idle s
      else
        let (s, u) := s.takeOwned p slot
        .next (s.modPort p (fun q => q.put s.now u))

/-! ### Received units -/

/-- Owner of a receive slot (R323). -/
def GPort.rxOwner (q : GPort) (slot : Nat) : Option Nat :=
  match q.fsltRx.find slot with
  | some e => if bits e.toNat 16 2 = 1 then some (bits e.toNat 0 16) else none
  | none => none

/-- A unit of another owner is dropped and counted (R324). -/
def State.ownerDrop (s : State) (p : Nat) : State :=
  (s.modPort p (fun q => { (q.flag psOwnerDrop) with dropCount := sat16 q.dropCount 1 })).portEvent p 3

/-- A unit has left an owner's receive queue: a credit goes back (R325). -/
def GPort.freeOwner (q : GPort) (id : Nat) : GPort := { q with freed := q.freed.set id (Tbl.get 0 q.freed id + 1) }

/-- The unit that a slot carried leaves its owner's receive queue at once. -/
def GPort.freeUnit (q : GPort) (slot : Nat) : GPort :=
  match q.rxOwner slot with
  | some id => q.freeOwner id
  | none => q

/-- The credit that a unit received in a slot gives back as it leaves its receive queue: port and owner. -/
def State.creditOf (s : State) (p slot : Nat) : Option (Nat × Nat) := ((s.port p).rxOwner slot).map (fun id => (p, id))

/-- A credit goes back to its owner. -/
def State.giveCredit (s : State) (c : Option (Nat × Nat)) : State :=
  match c with
  | some (p, id) => s.modPort p (fun q => q.freeOwner id)
  | none => s

/-- CREDIT: receive-queue credits come back to owners (R318, R325). -/
def execCredit (p : Nat) (s : State) : Out :=
  if numPorts ≤ p then .fault .noSuchUnit
  else
    let q := s.port p
    match q.headLink lCREDIT with
    | none => .next s
    | some (_, u) =>
      let used := (List.range 16).foldl (fun t i =>
        let e := fieldLE u.body.toNat (4 * i) 4
        let id := bits e 0 16
        Tbl.put 0 t id (Tbl.get 0 t id - bits e 16 10)) q.creditUsed
      .next (s.setPort p { q.pop with creditUsed := used })

/-- Puts a barge into the queue of an endpoint. -/
def State.emit (s : State) (ep : Nat) (b : Barge) : State := { s with egress := s.egress.set ep (Tbl.get [] s.egress ep ++ [b]) }

/-- The PORT_IN barge of a unit received on a circuit, or its drop (R324, R327, R330, R438). The unit stays in its owner's receive
queue until the barge leaves the I/O die in the owner's canal slots (R325). -/
def State.circuitUnit (s : State) (p slot : Nat) (retry poison sect : Bool) (u : LinkUnit) : State :=
  let t := trunkOf p
  let q := s.port p
  match s.fabric.circuits.find (4096 * t + u.index) with
  | none => (s.setPort p (q.freeUnit slot)).ownerDrop p
  | some ci =>
    if !ci.in_ || q.rxOwner slot != some ci.domain then (s.setPort p (q.freeUnit slot)).ownerDrop p
    else if ci.discard then s.setPort p (q.freeUnit slot)
    else s.emit (portEndpoint p) { ty := 7, tenant := ci.ctx / 4, src := portEndpoint p, dst := ci.wharf, stream := ci.wst
                                   payload := u.body, poison := poison, bad := if poison then 0xFF else 0, sect := sect
                                   retry := retry, circuit := u.index, port := p, ctx := ci.ctx
                                   credit := s.creditOf p slot }

/-- DATA: a unit of a circuit goes on to its landing wharf, or is dropped for ownership (R324, R330). -/
def execData (p : Nat) (s : State) : Out :=
  if numPorts ≤ p then .fault .noSuchUnit
  else
    match (s.port p).headKind kDATA with
    | none => .next s
    | some (sl, rp, u) => .next ((s.modPort p GPort.pop).circuitUnit p sl rp false false u)

/-- DATA_POISON: as DATA, every word poisoned (R316). -/
def execDataPoison (p : Nat) (s : State) : Out :=
  if numPorts ≤ p then .fault .noSuchUnit
  else
    match (s.port p).headKind kDataPoison with
    | none => .next s
    | some (sl, rp, u) => .next ((s.modPort p GPort.pop).circuitUnit p sl rp true false u)

/-- SECTEND: the end of a landing section goes on to its stream (R329, R330). -/
def execSectend (p : Nat) (s : State) : Out :=
  if numPorts ≤ p then .fault .noSuchUnit
  else
    match (s.port p).headKind kSECTEND with
    | none => .next s
    | some (sl, rp, u) => .next ((s.modPort p GPort.pop).circuitUnit p sl rp false true u)

/-- LINK subtypes defined in a version (R318). -/
def subtypeKnown (sub vmajor vminor : Nat) : Bool :=
  (decide (1 ≤ sub) && decide (sub ≤ 4)) || (sub == lDIGEST && vmajor == 2 && vminor == 1) || (decide (7 ≤ sub) && decide (sub ≤ 10))

/-- Is a received unit of a kind or subtype that the device does not take? -/
def GPort.unknown (q : GPort) (u : LinkUnit) : Bool :=
  decide (0xB ≤ u.kind) || u.kind == kBDATA || (u.kind == kLINK && !subtypeKnown u.index q.vmajor q.vminor) ||
    (u.kind == kDataPoison && decide (q.vmajor < 2))

/-- UNKNOWN_UNIT: a unit of an unused kind, or a LINK subtype that is not defined, is dropped and counted (R316, R318). -/
def execUnknownUnit (p : Nat) (s : State) : Out :=
  if numPorts ≤ p then .fault .noSuchUnit
  else
    let q := s.port p
    match q.rxq with
    | (sl, _, u) :: _ =>
      if q.unknown u then .next (s.setPort p { (q.pop.freeUnit sl) with crcCount := sat16 q.crcCount 1 }) else .next s
    | [] => .next s

/-! ### Basin traffic (R241, R319) -/

/-- A line of a tag is answered: the reply goes to the requester unless it was answered before; the tag ends with its
last line (R241, R446). The reply carries the credit of the unit that brought it, if it is the last of that unit (R325). -/
def State.basinReply (s : State) (p tag idx status : Nat) (data : Line) (poison retry : Bool) (credit : Option (Nat × Nat)) : State :=
  let k := 4096 * (p - 48) + tag
  match s.fabric.tags.find k with
  | none => s.giveCredit credit
  | some t =>
    let b := t.req
    let ep := portEndpoint p
    let last := b.ty != 1 || t.got == b.count
    let tags := if last then s.fabric.tags.del k else s.fabric.tags.set k { t with got := t.got + 1 }
    let s := { s with fabric := { s.fabric with tags := tags } }
    if t.dead ∨ (b.ty = 1 ∧ idx < t.skip) then s.giveCredit credit
    else s.emit ep { ty := if b.ty = 1 then 5 else 6, tenant := b.tenant, src := ep, dst := b.src, line := b.line + idx
                     count := idx, moff := b.moff, stream := b.stream, status := status, poison := poison, payload := data
                     retry := retry, basin := true, op := b.op, idx := b.idx + idx, credit := credit }

/-- Does a tag belong to the owner of the slot that carried its answer (R324, R359)? A tag that is not outstanding has no owner.
[DEDUCED: log 174] -/
def State.tagOwned (s : State) (p tag slot : Nat) : Bool :=
  match s.fabric.tags.find (4096 * (p - 48) + tag) with
  | some t => (s.port p).rxOwner slot == some t.req.tenant
  | none => false

/-- The messages of a BMSG unit that are not empty (R319). -/
def bmsgList (u : LinkUnit) : List Nat := ((List.range 4).map (fun i => fieldLE u.body.toNat (16 * i) 16)).filter (fun m => bits m 0 4 ≠ 0)

/-- Does a message to this device come from the owner of its slot: by its TENANT field and its tag (R324, R359)? -/
def State.messageOwned (s : State) (p slot m : Nat) : Bool :=
  (s.port p).rxOwner slot == some (bits m 4 8) && (!(bits m 0 4 == 4 || bits m 0 4 == 5) || s.tagOwned p (bits m 12 12) slot)

/-- BMSG: BACK and BRPE messages complete tags; a unit with a message that its slot's owner may not send is dropped and counted
once (R317, R319, R324). -/
def execBmsg (p : Nat) (s : State) : Out :=
  if numPorts ≤ p ∨ p < 48 then .fault .noSuchUnit
  else
    match (s.port p).headKind kBMSG with
    | none => .next s
    | some (sl, rp, u) =>
      let s := s.modPort p GPort.pop
      let l := bmsgList u
      if !l.all (s.messageOwned p sl) then .next ((s.modPort p (fun q => q.freeUnit sl)).ownerDrop p)
      else
        let l := l.filter (fun m => bits m 0 4 == 4 || bits m 0 4 == 5)
        if l.isEmpty then .next (s.modPort p (fun q => q.freeUnit sl))
        else .next ((l.zip (List.range l.length)).foldl (fun s x =>
          let m := x.1
          s.basinReply p (bits m 12 12) (if bits m 0 4 = 5 then bits m 24 6 else 0) (bits m 30 3) 0 false rp
            (if x.2 + 1 = l.length then s.creditOf p sl else none)) s)

/-- A BRP or BRP_POISON unit: the next line of its tag. -/
def State.basinLine (s : State) (p kind : Nat) (poison : Bool) : Out :=
  if numPorts ≤ p ∨ p < 48 then .fault .noSuchUnit
  else
    match (s.port p).headKind kind with
    | none => .next s
    | some (sl, rp, u) =>
      let s := s.modPort p GPort.pop
      match s.tagOwned p u.index sl, s.fabric.tags.find (4096 * (p - 48) + u.index) with
      | true, some t => .next (s.basinReply p u.index t.got 0 u.body poison rp (s.creditOf p sl))
      | _, _ => .next ((s.modPort p (fun q => q.freeUnit sl)).ownerDrop p)

/-- BRP: one read line, status OK (R319). [DEDUCED: log 38] -/
def execBrp (p : Nat) (s : State) : Out := s.basinLine p kBRP false
/-- BRP_POISON: one poisoned read line (R319). -/
def execBrpPoison (p : Nat) (s : State) : Out := s.basinLine p kBrpPoison true

/-- BASIN_PORT_FAIL: the tags of a failed Basin port are sent again on the new mapping, each to be completed once (R446). -/
def execBasinPortFail (b : Nat) (s : State) : Out :=
  if 8 ≤ b then .fault .noSuchUnit
  else
    let p := 48 + b
    let q := s.port p
    if q.state == .up || q.state == .down then .next s
    else
      let mine := s.fabric.tags.filter (fun e => e.1 / 4096 == b)
      let again := mine.map (fun e => { e.2.req with taken := max e.2.got e.2.skip }) ++ q.breqs
      let s := { s with fabric := { s.fabric with tags := s.fabric.tags.filter (fun e => e.1 / 4096 ≠ b) } }
      let s := s.setPort p { q.enter .failed s.now with breqs := [], queues := [], rxq := [] }
      let s := again.foldl (fun s r =>
        let n := 48 + (s.basinPort r.line).getD b
        s.modPort n (fun q => { q with breqs := q.breqs ++ [r] })) s
      .next (s.postPF 0x40 6 (body [(24, 1, 5), (26, 2, portNumber p), (36, 2, (mine.map (fun e => e.2.req.tenant)).eraseDups.length),
        (38, 1, s.detoured.length)]))

/-! ### Lanes and moved ports (R444, R445) -/

/-- LANE_FAULT: the port retrains at its largest healthy width `w` (R444). -/
def execLaneFault (p w : Nat) (s : State) : Out :=
  if numPorts ≤ p then .fault .noSuchUnit
  else
    let q := s.port p
    if q.state.carries && (w == 4 || w == 2 || w == 1) && decide (w < q.width) then
      let s := s.setPort p { (q.flag psRetrain).enter .align s.now with width := w, retrainStart := some s.now }
      .next (s.postPF 0x40 1 (body [(24, 1, 1), (26, 2, portNumber p), (30, 1, w), (38, 1, s.detoured.length)]))
    else .next s

/-- PORT_MOVE: the partner has moved a failed port; the units of every block it did not accept, then all that waits, go
out on this port in their order (R445). [DEDUCED: log 66] -/
def execPortMove (p : Nat) (s : State) : Out :=
  if numPorts ≤ p then .fault .noSuchUnit
  else
    let q := s.port p
    match q.headLink lPortMove with
    | none => .next s
    | some (_, u) =>
      let f := (fieldLE u.body.toNat 0 1 + 24) % 48
      let seq := bits (fieldLE u.body.toNat 2 2) 0 12
      let s := s.setPort p q.pop
      if trunkOf f ≠ trunkOf p ∨ f = p then .next s
      else
        let old := s.port f
        let late := ((ackBlocks seq old.replay).flatMap (fun b => ownedUnits b.units)) ++ ownedUnits old.filling
        let owner (u : LinkUnit) : Nat := ((s.fabric.circuits.find (4096 * trunkOf f + u.index)).map Circuit.domain).getD 0
        let s := late.foldl (fun s u => s.sendOwned p (owner u) u) s
        let s := old.queues.foldl (fun s e => e.2.foldl (fun s u => s.sendOwned p e.1 u) s) s
        let s := s.setPort f { (s.port f).enter .failed s.now with replay := [], filling := [], queues := [] }
        .next { s with fabric := { s.fabric with
          moved := Tbl.set (s.fabric.moved.map (fun e => if e.2 = f then (e.1, p) else e)) f p, moving := s.fabric.moving.del f } }

end Sys2Proof.Machine
end

