-- ==== Sys2Proof/Machine/Canal.lean ====
section
/-! DEFINITION. The canal network's barges (R207, R208), port streams leaving a wharf (R329) and landing at one (R330). -/

namespace Sys2Proof.Machine

/-! ### Slot owners (R210 to R213) -/

/-- A CSLT entry: the provider's 16 slots of a frame, or all of them on the Lockkeeper's link; else the tenant that holds it.
[DEDUCED: log 139] -/
def State.cslt (s : State) (ep i : Nat) : Nat :=
  if ep = 626 ∨ i % 32 = 0 then 0x200
  else match s.tenants.find? (fun p => p.2.st != .settingUp && p.2.canalSlots.contains i) with
    | some p => 0x100 + p.1
    | none => 0

/-- The owner of a barge, as a CSLT entry names it. -/
def Barge.owner (b : Barge) : Nat := if b.prov then 0x200 else 0x100 + b.tenant

/-- May a barge leave its endpoint now: on a wharf link always, on a shared link in a slot of its owner; the two slots of this ns
are those of its kc in the frame of 256 ns (R210, R211). -/
def State.maySend (s : State) (ep : Nat) (b : Barge) : Bool :=
  decide (ep < numGranules) || s.cslt ep (2 * (s.now % 256)) == b.owner || s.cslt ep (2 * (s.now % 256) + 1) == b.owner

/-- Does a barge go to an endpoint, itself or as one of its copies? -/
def Barge.goesTo (b : Barge) (dst : Nat) : Bool := if b.mc then b.copies.any (fun x => x.1 == dst) else b.dst == dst

/-- The barges that arrive of one: its copies at each wharf of its replication set, or itself (R229). -/
def Barge.arrivals (b : Barge) : List Barge :=
  if b.mc then b.copies.map (fun x => { b with dst := x.1, op := x.2.1, idx := x.2.2.1, stream := x.2.2.2, mc := false, copies := [] })
  else [b]

/-- Bits [119:0] of a barge's header (R208). -/
def Barge.header (b : Barge) : BitVec 120 :=
  BitVec.ofNat 120 (pack [(0, 4, b.ty), (4, 8, b.tenant), (12, 1, b2n b.prov), (13, 10, b.src), (23, 10, b.dst), (33, 1, b2n b.mc),
    (34, 35, b.line), (69, 6, b.count), (75, 13, b.moff), (88, 6, b.stream), (94, 8, b.wmask.toNat), (102, 3, b.status),
    (105, 1, b2n b.poison)])

/-- An endpoint counts a header that it corrected (`hdr` 1), or a link fault for one beyond correction, which a wharf also flags
(R187, R208, R217). [DESIGN CHOICE: log 175] -/
def State.headerCheck (s : State) (ep hdr : Nat) : State :=
  let (ce, ue) := Tbl.get (0, 0) s.canalErr ep
  match hdr with
  | 0 => s
  | 1 => { s with canalErr := s.canalErr.set ep (ce + 1, ue) }
  | _ =>
    let s := { s with canalErr := s.canalErr.set ep (ce, ue + 1) }
    if ep < numGranules then s.modWharf ep (fun w => w.note 0 whHdrDrop 0) else s

/-! ### Port streams leaving a wharf (R329) -/

/-- The SECTENDs of a stream one of whose flits has left the queue: those with no flit ahead any more are due now. -/
def Wharf.countSects (w : Wharf) (i : Nat) : Wharf × List Nat :=
  let l := w.sects.map (fun x => if x.1 = i then (x.1, x.2 - 1) else x)
  let due (x : Nat × Nat) : Bool := x.1 == i && x.2 == 0
  ({ w with sects := l.filter (fun x => !due x) }, (l.filter due).map Prod.fst)

/-- PORT_OUT_FLIT: the flit at the head of a wharf's queue, of a PORT_OUT stream, becomes a unit on its way to its port; a SECTEND
that waited for it follows (R329). -/
def execPortOutFlit (g : Nat) (s : State) : Out :=
  if numGranules ≤ g then .fault .noSuchUnit
  else
    let w := s.wharf g
    match w.inq with
    | (_, f, _) :: _ =>
      match w.dataOf f.ch with
      | some i =>
        if wstKind (w.wst i) ≠ 2 ∨ !w.backlog.isEmpty then .next s
        else
          let (w', due) := w.popFlit.countSects i
          .next ((s.setWharf g w').queueBarges g (s.portOut g i (some f) :: due.map (fun j => s.portOut g j none)))
      | none => .next s
    | [] => .next s

/-- A PORT_OUT barge at its fabric I/O die becomes a unit in its home port's queue for the stream's domain (R316, R329). -/
def State.portUnit (s : State) (b : Barge) : State :=
  let p := s.homePort (fabricPort b.dst b.port)
  let id := (s.ctx b.ctx).domainId
  let u (k : Nat) : LinkUnit := { kind := k, index := b.circuit, body := if b.sect then 0 else b.payload }
  if b.sect then s.sendOwned p id (u kSECTEND)
  else if b.bad = 0 then s.sendOwned p id (u kDATA)
  else if (s.port p).vmajor < 2 then s.modPort p (fun q => { q with poisonCount := sat16 q.poisonCount 1 })
  else s.sendOwned p id (u kDataPoison)

/-- A barge at its destination, or on its way there: an I/O die takes units and Basin requests at once. -/
def State.deliver (s : State) (b : Barge) : State :=
  if b.ty = 4 ∧ isFabricEp b.dst then s.portUnit b
  else if b.ty ≤ 3 ∧ b.basin then
    let n := 48 + (s.basinPort b.line).getD 0
    s.modPort n (fun q => { q with breqs := q.breqs ++ [b] })
  else { s with transit := s.transit ++ [b] }

/-- Endpoints of the canal network (R207). -/
def numEndpoints : Nat := 627

/-- BARGE_SEND: the oldest barge of endpoint `ep` for `dst` whose owner has the slot crosses the canal. `hdr` is what the header's
check finds at the far end: 0 good, 1 corrected, 2 uncorrectable, which drops it; `bad` marks the payload words that arrive
poisoned. A unit that leaves an I/O die gives its receive-queue credit back (R207, R208, R211, R229, R325). -/
def execBargeSend (ep dst hdr : Nat) (bad : BitVec 8) (s : State) : Out :=
  if numEndpoints ≤ ep ∨ numEndpoints ≤ dst then .fault .noSuchUnit
  else
    match takeFirst (fun b => b.goesTo dst && s.maySend ep b) (Tbl.get [] s.egress ep) with
    | none => .next s
    | some (b, rest) =>
      let s := { s with egress := if rest.isEmpty then s.egress.del ep else s.egress.set ep rest }
      let s := if ep < numGranules then s.refill ep else s
      let s := s.giveCredit b.credit
      .next (b.arrivals.foldl (fun s x =>
        let s := s.headerCheck x.dst hdr
        if hdr < 2 then s.deliver { x with bad := x.bad ||| bad, credit := none } else s) s)

/-! ### Landing of PORT_IN streams (R328, R330) -/

def piDepth (e : BitVec 256) : Nat := bits e.toNat 156 8
def piSbase (e : BitVec 256) : Nat := bits e.toNat 164 13
def piSlines (e : BitVec 256) : Nat := bits e.toNat 177 13

/-- A SECTEND: the stream moves to its next section, whose lines are no longer PRESENT (R330). -/
def Wharf.nextSection (w : Wharf) (i : Nat) : Wharf :=
  let e := w.wst i
  let n := ((Tbl.get {} w.sections i).index + 1) % (piDepth e + 1)
  let lo := piSbase e + n * piSlines e
  { w with sections := w.sections.set i { index := n, offset := 0 }
           moor := w.moor.map (fun p => if lo ≤ p.1 ∧ p.1 < lo + piSlines e then (p.1, { p.2 with present := false }) else p) }

/-- PORT_IN: a unit lands in its stream's current section, moves it on, or is dropped at a full section (R330). -/
def execPortIn (src g : Nat) (s : State) : Out :=
  if numGranules ≤ g then .fault .noSuchUnit
  else
    match s.arriving src g with
    | none => .next s
    | some (b, rest) =>
      if b.ty ≠ 7 then .next s
      else
        let s := { s with transit := rest }
        let w := s.wharf g
        let e := w.wst b.stream
        if s.discards b.tenant || !wstValid e || wstKind e != 3 then .next s
        else if b.sect then .next (s.setWharf g (w.nextSection b.stream))
        else
          let sc := Tbl.get {} w.sections b.stream
          if piSlines e ≤ sc.offset then
            let s := s.modPort b.port (fun q => { (q.flag psOverrun) with overrunCount := sat16 q.overrunCount 1 })
            .next (s.postTenant b.tenant 0x21 3 (s.ctx b.ctx).eventId (body [(24, 2, b.circuit), (26, 1, trunkOf b.port)]))
          else
            let m := piSbase e + sc.index * piSlines e + sc.offset
            let w := { w with
              moor := w.moor.set (m % 8192) { data := b.payload, bad := b.bad, present := true, retry := b.retry }
              sections := w.sections.set b.stream { sc with offset := sc.offset + 1 } }
            .next (s.setWharf g (if b.bad ≠ 0 then w.note b.stream whPoison sc.offset else w))

end Sys2Proof.Machine
end

