-- ==== Sys2Proof/Machine/Rewind.lean ====
section
/-! DEFINITION. Tiles as an image leaves them (R98, R159, R182), the rewind and replay of a domain (R435 to R439), links
and detours (R431, R432), and loss of a member or relay (R349 to R351). -/

namespace Sys2Proof.Machine

/-! ### Tiles as the loader leaves them -/

/-- The instruction buffer of an image's initial fill (R94). -/
def fillBuf (l : List Word) : Tbl Word := (l.zip (List.range l.length)).foldl (fun b p => Tbl.put 0#32 b p.2 p.1) []

/-- Initial contents of tile memory (R98). -/
def rangesMem (l : List (Nat × List Byte)) : Mem := l.foldl (fun m p => m.writeBytes p.1 p.2) []

/-- Handles bound to the given objects in turn, with their initial counts (R98, R305). -/
def bindSyncs (objs : List Nat) (l : List (Nat × Nat)) : Tbl SyncObj :=
  (l.zip objs).foldl (fun t p => Tbl.set t p.1.1 { pool := p.2, count := BitVec.ofNat 16 p.1.2 }) []

/-- A tile in the state of R98, R159 and R182, its handles bound to `objs` and `mem` as its memory; what debugging and measurement hold stays. -/
def Tile.loaded (tl : Tile) (objs : List Nat) (im : TileImage) (mem : Mem) (chk : Tbl WordState) : Tile :=
  { Tile.reset with
    core := { pc := BitVec.ofNat 12 im.entry }, ibuf := fillBuf im.fill, mem := mem, chk := chk, sync := bindSyncs objs im.syncs
    vx := tl.vx, vy := tl.vy, home := tl.home, lock := { acct := tl.lock.acct }
    gen := { keyLo := tl.gen.keyLo, keyHi := tl.gen.keyHi }
    tapEn := tl.tapEn, dsEn := tl.dsEn, nmScale := tl.nmScale, brk := tl.brk }

/-- The image of a tile of a context, by its virtual place. -/
def State.imageOf (s : State) (c : Nat) (tl : Tile) : Option TileImage :=
  (s.loads.find (c / 4)).bind (fun l => l.tiles.find? (fun i => i.vx == tl.vx && i.vy == tl.vy))

/-! ### Rewind (R438) -/

/-- Steps 1 and 3 of the rewind for one tile; a spare's memory is loaded from the replay copy (R439). -/
def State.rewindTile (s : State) (c t : Nat) (spare : Option Nat) : State :=
  let tl := s.tile t
  match s.imageOf c tl with
  | none => s
  | some im =>
    let fresh := spare == some (granOf t)
    let tl' :=
      if fresh then
        let s := s.setTile t { tl with sync := [] }
        tl.loaded (s.freeObjects (c / 4) (dieOf t)) im (rangesMem im.ranges) []
      else tl.loaded (im.syncs.map (fun p => ((tl.sync.find p.1).map SyncObj.pool).getD 0)) im tl.mem tl.chk
    s.setTile t tl'

/-- Router buffers of a domain's tiles are emptied and the credits toward them return (R438 step 1). -/
def State.rewindRouter (s : State) (t : Nat) : State :=
  let r := s.router t
  let s := s.setRouter t { r with inq := [], granted := [], used := [], returning := [], ready := [], ssq := [], ssqReady := [], localOut := none }
  [1, 2, 3, 4].foldl (fun s o =>
    match s.neighbour t o with
    | none => s
    | some n =>
      let back (k : Nat) : Bool := k / 8 == opposite o
      let q := s.router n
      s.setRouter n { q with used := q.used.filter (fun e => !back e.1), returning := q.returning.filter (fun e => !back e.1) }) s

/-- A wharf of the region drops its commands, PRESENT bits and egress queue; PORT_IN streams of the domain go back to the
section of `b`; a partial reply is discarded (R438 steps 1, 2 and 4). -/
def State.rewindWharf (s : State) (g b : Nat) : State :=
  let w := s.wharf g
  let secs : Tbl Section := (w.streams.filter (fun p => wstValid p.2 && wstKind p.2 == 3 && !isLoop p.2)).map (fun p =>
    (p.1, { index := b % (piDepth p.2 + 1), offset := 0 }))
  { s.setWharf g { w with moor := w.moor.map (fun p => (p.1, { p.2 with present := false })), inq := [], reads := [], fences := []
                          writes := [], counts := [], pulls := [], backlog := [], sects := [], sections := secs } with
    egress := s.egress.del g
    transit := s.transit.filter (fun b => !(b.src == g && (b.ty == 2 || b.ty == 3 || b.ty == 4)))
    streams := s.streams.map (fun p => if p.1 / 64 = g then (p.1, { p.2 with reply := none }) else p) }

/-- Units of the domain that wait or travel on the canal are discarded; those that leave an I/O die's queue give their credits back
(R325, R438 step 2). -/
def State.dropPortIns (s : State) (c : Nat) : State :=
  let mine (b : Barge) : Bool := b.ty == 7 && b.ctx == c
  let s := (s.egress.flatMap (fun p => p.2.filter mine)).foldl (fun s b => s.giveCredit b.credit) s
  { s with egress := s.egress.map (fun (p : Nat × List Barge) => (p.1, p.2.filter (fun b => !mine b)))
           transit := s.transit.filter (fun b => !mine b) }

/-- The fabric side of a rewind: the domain's queued units are dropped, REPLAY_MARK goes out on each port that carried its
circuits, and what arrives is discarded until the partner's (R438 step 2). -/
def State.rewindFabric (s : State) (c b : Nat) : State :=
  let s := s.dropPortIns c
  let id := (s.ctx c).domainId
  let mine := s.fabric.circuits.filter (fun e => e.2.domain == id)
  let outs := ((mine.filter (fun e => !e.2.in_)).map (fun e => s.homePort e.2.port)).eraseDups
  let s := outs.foldl (fun s p => s.modPort p (fun q => { q with
    queues := q.queues.del id, sysq := q.sysq ++ [linkUnit lReplayMark [(0, 2, id), (2, 6, b)]] })) s
  { s with fabric := { s.fabric with
      circuits := s.fabric.circuits.map (fun e => if e.2.domain = id ∧ e.2.in_ then (e.1, { e.2 with discard := true }) else e) } }

/-- A rewind of the domain to boundary `r` on this device (R438 steps 1 to 4). -/
def State.rewind (s : State) (c : Nat) (r : Release) (spare : Option Nat) : State :=
  let ts := s.tilesOf c
  let gs := s.gransOf c
  let s := ts.foldl (fun s t => s.rewindRouter t) s
  let s := gs.foldl (fun s g => s.rewindWharf g r.index) s
  let s := if (s.ctx c).spans then s.rewindFabric c r.index else s
  let s := ts.foldl (fun s t => s.rewindTile c t spare) s
  s.modCtx c (fun cx => { cx with
    arrivals := [], huuArrived := [], lkArrived := false, childMarkers := [], firstArrival := none, gatherSent := false
    release := none, heldRelease := none, haltReq := false, recovery := none, holdReleases := false
    recoveries := cx.recoveries + 1 })

/-- The replay release of `r` with fire time `f`: index and MBN are those of B, and the members begin again (R438). -/
def State.replay (s : State) (c f : Nat) (r : Release) : State :=
  let r := { r with fire := f, replay := true, halt := false, commit := false, armed := false }
  let s := s.modCtx c (fun cx => { cx with index := r.index, fireTime := f, mbn := cx.boundaryMbn, state := .running, started := true })
  let s := s.holdTimed c
  s.showRelease c (s.visibleTime c f) r

/-- The boundary that a replay returns to: the last boundary released, or C_s of a step between N_s and C_s, which commits
as its sweep is complete (R435). [DEDUCED: log 58] -/
def State.replayBoundary (s : State) (c : Nat) : Option (State × Release) :=
  let cx := s.ctx c
  match cx.boundary with
  | none => none
  | some b =>
    match cx.upd.run with
    | some r =>
      if b.index < r.lock + 1 then
        let ce := cx.upd.sweepEnd r.lock
        if r.skip || s.workDone c r (fun _ => true) cx.upd.fpass true then
          let rel : Release := { b with index := ce, flags := 0x40000000, epoch := cx.epoch, digest := cx.digest, presence := 0, status := 0
                                        cargo := Vector.replicate 4 0 }
          let s := (s.stepCommit c ce).modCtx c (fun cx => { cx with
            boundary := some rel, boundaryMbn := cx.mbn + 1, mbn := cx.mbn + 1, huuHold := false, huuIndex := ce })
          some (s, rel)
        else none
      else some (s, b)
    | none => some (s, b)

/-- While a recovery waits for the sweep, the update units go on past the factor pass (R435). -/
def State.sweepOn (s : State) (c : Nat) : State :=
  let cx := s.ctx c
  match cx.upd.run with
  | some r =>
    if cx.upd.fpass && !r.skip && cx.huuReached r.lock && s.workDone c r (fun _ => true) true false && decide (cx.huuIndex < r.lock + 1) then
      s.setCtx c { cx with huuIndex := r.lock + 1, huuHold := false }
    else s
  | none => s

/-- REPLAY_RELEASE: the domain is rewound on this device and the root fires the replay release of B, one stretched lock of
cause 5 (R434, R438). [DEDUCED: log 69] -/
def execReplayRelease (c : Nat) (s : State) : Out :=
  if numCtxs ≤ c then .fault .noSuchUnit
  else
    let cx := s.ctx c
    match cx.recovery with
    | none => .next s
    | some rec_ =>
      if !rec_.lost || !s.isRoot c || !cx.state.live || s.lk.pair1.since.isSome then .next s
      else match s.replayBoundary c with
        | none => .next (s.sweepOn c)
        | some (s, b) =>
          let s := s.rewind c b rec_.granule
          let s := s.recordStretch c 5 s.now
          let stall := (s.now - rec_.detected) / 1000
          let s := s.recoveryEvent c 1 rec_.vgranule.1 rec_.vgranule.2 rec_.class_ b.index rec_.lastFired stall
          let s := s.moveElastic c
          let s := s.replay c s.now b
          .next (s.releaseDown c { b with fire := s.now })

/-! ### Link faults and detours (R431, R432) -/

/-- LINK_FAULT: a fault of a link, router port or bond on side 0 to 3 of the granule of tile `t` moves that side to the
lowest-numbered free detour path; `lost` says that it dropped or poisoned a flit. Side 4 is a fault inside the granule, and
5 to 8 a parity error in state of unit `side` − 5 of the tile that no order's begin observes, as TILE_FAULT.SOURCE numbers the units;
it is imprecise: all are granule faults (R26, R97, R430, R431). The spec gives SOURCE and INDEX of such an error no value: they name
that unit and, as for its other faults, the orders it has taken or the PC. [DEDUCED: log 70, 180] -/
def execLinkFault (t side : Nat) (lost : Bool) (s : State) : Out :=
  if numTiles ≤ t ∨ 9 ≤ side then .fault .noSuchUnit
  else
    let g := granOf t
    if side = 4 then .next (s.granuleFault g)
    else if side = 5 then .next (s.stopTile t cIntegrity 0 false 0xFF (s.tile t).core.pc.toNat 0 true)
    else if 5 < side then .next (s.stopTile t cIntegrity (side - 5) false 0xFF (((s.tile t).engine (side - 6)).taken % 4096) 0 true)
    else .next (s.linkFault g side lost)

/-- DETOUR_SWITCH: the side's buffers have drained and it moves to its path; domains that lost no flit go on, those of
images that are not detour-safe as Elastic (R432). -/
def execDetourSwitch (path : Nat) (s : State) : Out :=
  if 32 ≤ path then .fault .noSuchUnit
  else
    match s.detours.find path with
    | none => .next s
    | some d =>
      if !d.draining || !s.sideEmpty d.granule d.side || s.lk.pair1.since.isSome then .next s
      else
        let s := { s with detours := s.detours.set path { d with draining := false } }
        .next ((s.sideCtxs d.granule d.side).foldl (fun s c =>
          let cx := s.ctx c
          let s := s.moveElastic c
          match cx.recovery with
          | some r =>
            if r.lost then s
            else
              let s := s.modCtx c (fun cx => { cx with holdReleases := false, recovery := none, recoveries := cx.recoveries + 1 })
              let action := if (s.ctx c).elastic && !cx.elastic then 5 else 2
              let s := s.recoveryEvent c action r.vgranule.1 r.vgranule.2 2 0 r.lastFired ((s.now - r.detected) / 1000)
              -- the members' next arrivals carry cause 5 for the lock cycle in recovery
              s.modCtx c (fun cx => { cx with causes := cx.causes ||| 32#8 })
          | none => s) s)

end Sys2Proof.Machine
end

