-- ==== Sys2Proof/Machine/Tree.lean ====
section
/-! DEFINITION. The spanning tree of a domain over many devices: markers (R331 to R333), formation (R334, R341 to R343),
replica digests (R344), loss of a device (R349 to R351) and the replay messages (R434, R438). -/

namespace Sys2Proof.Machine

/-! ### Markers -/

/-- The marker pair at the head of a port's received units: lock marker or release as MFLAGS bit 0 says. -/
def GPort.headMarker (q : GPort) (release : Bool) : Option (Bool × Line × Line) :=
  match q.rxq with
  | (_, rp, a) :: (_, rp', b) :: _ =>
    if a.kind = kMarkerA ∧ b.kind = kMarkerB ∧ bit (fieldLE a.body.toNat 16 1) 0 = release then some (rp || rp', a.body, b.body) else none
  | _ => none

/-- GATHER_MARKER: a child's marker joins the gather; one carried by a replayed block is late by link retry (R321, R332). -/
def execGatherMarker (p : Nat) (s : State) : Out :=
  if numPorts ≤ p then .fault .noSuchUnit
  else
    match (s.port p).headMarker false with
    | none => .next s
    | some (rp, a, b) =>
      let s := s.modPort p (fun q => q.pop.pop)
      match s.ctxOfDomain (fieldLE a.toNat 0 2) with
      | none => .next s
      | some c =>
        let cx := s.ctx c
        let m := decGather (trunkOf p) a b
        let m := { m with at_ := s.now, cause := if rp && decide (causeRank m.cause < causeRank 1) then 1 else m.cause }
        if m.index = cx.gathering ∧ (s.childTrunks c).contains m.trunk ∧ !cx.childMarkers.any (fun x => x.trunk == m.trunk) then
          .next (s.setCtx c { cx with childMarkers := cx.childMarkers ++ [m], firstArrival := match cx.firstArrival with
            | some x => some x
            | none => some s.now })
        else .next s

/-- A held release fires again with a new fire time (R58). -/
def State.resumeRelease (s : State) (c f : Nat) (r : Release) : State :=
  let r := { r with fire := f }
  let s := s.modCtx c (fun cx => { cx with state := .running, heldRelease := none, fireTime := f })
  s.showRelease c (s.visibleTime c f) r

/-- A release arrives from the parent: at a relay it only passes on; a held one fires again; one whose index is not above
the last is a replay release, before which the device rewinds; else it takes effect here (R58, R333, R438). -/
def State.releaseArrives (s : State) (c : Nat) (r : Release) : State :=
  let cx := s.ctx c
  let s := s.releaseDown c r
  if numCtxs ≤ c then
    if r.abort then s.setCtx c { Ctx.reset with index := r.index, started := true }
    else s.setCtx c { cx with index := r.index, started := true, state := .running, childMarkers := [], gatherSent := false }
  else if r.mismatch && !cx.started then s.failFormation c stMismatch
  else match cx.heldRelease with
    | some h =>
      if h.index = r.index ∧ !r.abort then s.resumeRelease c r.fire h
      else if r.abort then s.abortCtx c else s
    | none =>
      if r.abort then s.abortCtx c
      else if cx.started ∧ r.index ≤ cx.index then
        let b := match cx.boundary with
          | some x => if x.index = r.index then x else r
          | none => r
        let rec_ := cx.recovery
        let s := s.recordStretch c 5 r.fire
        let s := match s.replayBoundary c with
          | some (s, _) => s
          | none => s
        let s := s.rewind c b ((rec_.map Recovery.granule).getD none)
        let s := match rec_ with
          | some d => s.recoveryEvent c 1 d.vgranule.1 d.vgranule.2 d.class_ b.index d.lastFired ((s.now - d.detected) / 1000)
          | none => s
        s.replay c r.fire b
      else
        let late := r.commit && (cx.staged.map Staged.lateMode).getD false
        let s := s.recordStretch c r.cause r.fire
        let s := if r.commit then
            match cx.staged with
            | some g => s.commitStaged c r.index g
            | none => s
          else s
        s.takeRelease c { r with late := late }

/-- RELEASE_MARKER: a release marker arrives from the parent and goes on to the children (R333); where a replayed block made it
late, the members' next arrivals carry cause 1 (R321). -/
def execReleaseMarker (p : Nat) (s : State) : Out :=
  if numPorts ≤ p then .fault .noSuchUnit
  else
    match (s.port p).headMarker true with
    | none => .next s
    | some (rp, a, b) =>
      let s := s.modPort p (fun q => q.pop.pop)
      match s.ctxOfDomain (fieldLE a.toNat 0 2) with
      | none => .next s
      | some c =>
        if s.parentTrunk c = some (trunkOf p) then
          let r := decRelease a b
          let late := rp && decide (r.fire + cdiv (s.ctx c).rRel 1000 < s.now + 48)
          let s := s.releaseArrives c r
          .next (if late then s.modCtx c (fun cx => { cx with causes := cx.causes ||| 2#8 }) else s)
        else .next s

/-! ### Formation (R334, R341, R342) -/

/-- The delay of one tree edge in ps (R334). -/
def State.edgeDelay (s : State) (t k : Nat) : Nat :=
  185280 + 16 / k * 20480 + 1000 * ((s.trunkPort t).map (fun p => (s.port p).fdelay)).getD 0

/-- A link version as FORM encodes it. -/
def GPort.version (q : GPort) : Nat := 16 * q.vmajor + q.vminor

/-- Trunks on which a domain has circuits here. -/
def State.circuitTrunks (s : State) (id : Nat) : List Nat :=
  ((s.fabric.circuits.filter (fun e => e.2.domain == id)).map (fun e => e.1 / 4096)).eraseDups

/-- Lowest version required by a context's configuration (R342). -/
def State.versionNeeded (s : State) (c k : Nat) : Nat :=
  let cx := s.ctx c
  if numCtxs ≤ c then (if 1 < k then 0x11 else 0x10)
  else if cx.upd.digestN ≠ 0 ∧ (s.shardsOf c).any (fun p => shRepl p.2 ≠ 0) then 0x21
  else if cx.cargoExact ∨ cx.basinMember then 0x20
  else if 1 < k then 0x11
  else 0x10

/-- Bytes 0 to 3 of the region's image digest (R535). -/
def State.imageWord (s : State) (c : Nat) : Nat := ((s.loads.find (c / 4)).map (fun l => l.digest % 2 ^ 32)).getD 0

/-- The FORM of this device's subtree, from its own links and its children's FORMs (R318): the lowest version of every link of the
trunks in use (R342), and a backup path counted as one hop more (R334, R351). [DESIGN CHOICE: log 173] -/
def State.formOf (s : State) (c : Nat) (g : Grant) : FormMsg :=
  let kids := Tbl.get [] s.fabric.forms g.domainId
  let member := decide (c < numCtxs)
  let trunks := ((List.range 6).filter (fun t => g.parent == t || g.children.getLsbD t) ++ s.circuitTrunks g.domainId).eraseDups
  let vers := trunks.flatMap (fun t => ((trunkPorts t).filter (fun p => (s.port p).state == .up)).map (fun p => (s.port p).version)) ++
    kids.map FormMsg.lowest
  let edges := g.edges.map (fun t => s.edgeDelay t g.k) ++ kids.map FormMsg.he
  { trunk := 0, members := (if member then 1 else 0) + (kids.map FormMsg.members).sum
    lowest := vers.foldl min 0x21, required := (kids.map FormMsg.required).foldl max (s.versionNeeded c g.k)
    depth := (kids.map (fun f => f.depth + 1)).foldl max 0 + (if g.backup < 6 then 1 else 0), he := edges.foldl max 0
    image := ((if member then s.imageWord c else 0) + (kids.map FormMsg.image).sum) % 2 ^ 32 }

/-- Formation fails on this device and its neighbours in the tree but the one it was told by (R341). -/
def State.formFail (s : State) (c status : Nat) (from_ : Option Nat) : State :=
  match s.grantOf c with
  | none => s
  | some g =>
    let u := linkUnit lFORMED [(0, 2, g.domainId), (2, 2, status)]
    let s := ((List.range 6).filter (fun t => (g.parent == t || g.children.getLsbD t) && from_ != some t)).foldl (fun (s : State) t => s.sendLink t u) s
    let s := { s with fabric := { s.fabric with forms := s.fabric.forms.del g.domainId } }
    if c < numCtxs then s.failFormation c status else s.setCtx c Ctx.reset

/-- FORMED takes effect on a member: O, R_rel, version and image value are recorded, the configuration digest is formed with them,
the proofs are checked against O, and the gather of lock 0 may leave (R341 steps 5 to 7, R535). -/
def State.formedHere (s : State) (c o rRel version image : Nat) (from_ : Option Nat) : State :=
  let s := s.modCtx c (fun cx => { cx with overhead := o, rRel := rRel, version := version, imageValue := image })
  if numCtxs ≤ c then s.modCtx c (fun cx => { cx with formedHere := true, state := .forming, started := false, index := 0, childMarkers := [] })
  else
    let s := s.renewDigest c
    let cx := s.ctx c
    let least := max 250 o
    if decide (cx.oAssumed < o) || (!cx.elastic && (decide (cx.period < least) || decide (cx.pProved < least))) then s.formFail c stDenied from_
    else s.setCtx c { cx with formedHere := true }

/-- The step of formation that a context can take now: pass FORM on once every child's is in, or at the root compute the
domain's quantities and send FORMED (R334, R341 steps 3 to 5, R342); while the device's time is out of bound it waits (R339). -/
def State.formStep (s : State) (c : Nat) : State :=
  match s.grantOf c with
  | none => s
  | some g =>
    let kids := Tbl.get [] s.fabric.forms g.domainId
    let cx := s.ctx c
    let waiting := (decide (numCtxs ≤ c) && !kids.isEmpty) || (cx.formation.map (fun f => !f.sent)).getD false
    let edgesUp := g.edges.all (fun t => (s.trunkPort t).isSome)
    let have_ := (List.range 6).all (fun t => !g.children.getLsbD t || kids.any (fun f => f.trunk == t))
    if !waiting || !edgesUp || !have_ || s.fabric.drifting || s.lk.state == .failed then s
    else
      let f := s.formOf c g
      let s := s.modCtx c (fun cx => { cx with formation := cx.formation.map (fun x => { x with sent := true }) })
      if g.root then
        if f.lowest < f.required then s.formFail c stNoCap none
        else
          let rRel := 88000 + f.depth * f.he
          let o := cdiv (168000 + f.depth * (2 * f.he + 8000)) 1000
          let u := linkUnit lFORMED [(0, 2, g.domainId), (2, 2, 0), (4, 2, o), (6, 4, rRel), (10, 1, f.lowest), (12, 4, f.image)]
          let s := { s with fabric := { s.fabric with forms := s.fabric.forms.del g.domainId } }
          let s := ((List.range 6).filter (fun t => g.children.getLsbD t)).foldl (fun (s : State) t => s.sendLink t u) s
          s.formedHere c o rRel f.lowest f.image none
      else
        let s := { s with fabric := { s.fabric with forms := s.fabric.forms.del g.domainId } }
        s.sendLink g.parent (linkUnit lFORM [(0, 2, g.domainId), (2, 2, f.members), (4, 1, f.lowest), (5, 1, f.required), (6, 2, f.depth),
          (8, 4, f.he), (12, 4, f.image)])

/-- FORM: a child's subtree summary, kept until this device's own is complete (R341 step 3). -/
def execForm (p : Nat) (s : State) : Out :=
  if numPorts ≤ p then .fault .noSuchUnit
  else
    match (s.port p).headLink lFORM with
    | none => .next s
    | some (_, u) =>
      let s := s.modPort p GPort.pop
      let f (o n : Nat) := fieldLE u.body.toNat o n
      let id := f 0 2
      match s.fabric.grants.find id with
      | none => .next s
      | some g =>
        let t := trunkOf p
        if !g.children.getLsbD t then .next s
        else
          let m : FormMsg := { trunk := t, members := f 2 2, lowest := f 4 1, required := f 5 1, depth := f 6 2, he := f 8 4, image := f 12 4 }
          let l := (Tbl.get [] s.fabric.forms id).filter (fun x => x.trunk ≠ t) ++ [m]
          let s := { s with fabric := { s.fabric with forms := s.fabric.forms.set id l } }
          match s.ctxOfDomain id with
          | some c => .next (s.formStep c)
          | none => .next s

/-- FORMED: the root's quantities, or a failure, come along the tree and go on (R341 steps 5 and 6). -/
def execFormed (p : Nat) (s : State) : Out :=
  if numPorts ≤ p then .fault .noSuchUnit
  else
    match (s.port p).headLink lFORMED with
    | none => .next s
    | some (_, u) =>
      let s := s.modPort p GPort.pop
      let f (o n : Nat) := fieldLE u.body.toNat o n
      match s.ctxOfDomain (f 0 2) with
      | none => .next s
      | some c =>
        let t := trunkOf p
        if f 2 2 ≠ 0 then (if (s.ctx c).started then .next s else .next (s.formFail c (f 2 2) (some t)))
        else
          let s := match s.grantOf c with
            | some g => ((List.range 6).filter (fun x => g.children.getLsbD x)).foldl (fun (s : State) x => s.sendLink x u) s
            | none => s
          .next (s.formedHere c (f 4 2) (f 6 4) (f 10 1) (f 12 4) none)

/-- FORMATION_TIMEOUT: formation that is not complete within 1 s fails with ABORTED on every member (R339, R341).
[DESIGN CHOICE: log 153] -/
def execFormationTimeout (c : Nat) (s : State) : Out :=
  if numCtxs ≤ c then .fault .noSuchUnit
  else
    let cx := s.ctx c
    match cx.formation with
    | some f => if cx.state == .forming && !cx.started && decide (f.started + 1000000000 ≤ s.now) then .next (s.formFail c stAborted none) else .next s
    | none => .next s

/-! ### Digests (R344) -/

/-- DIGEST: replica digests from another device go on along the tree and are compared with this device's own of the same
step, at once or when its own step commits (R344). -/
def execDigest (p : Nat) (s : State) : Out :=
  if numPorts ≤ p then .fault .noSuchUnit
  else
    match (s.port p).headLink lDIGEST with
    | none => .next s
    | some (sl, u) =>
      let q := s.port p
      let s := s.setPort p (q.pop.freeUnit sl)
      match (q.rxOwner sl).bind s.ctxOfDomain with
      | none => .next s
      | some c =>
        let s := s.spreadDigests c (some (trunkOf p)) [u]
        if numCtxs ≤ c ∨ s.lk.state = .failed then .next s
        else if (s.ctx c).upd.run.isSome then
          .next (s.modCtx c (fun cx => { cx with digestMsgs := cx.digestMsgs ++ decDigests u.body }))
        else .next (s.compareWith c (decDigests u.body))

/-! ### Loss of a device (R349 to R351) -/

/-- The domain ends on every member below this device and here (R58, R349). -/
def State.abortTree (s : State) (c : Nat) : State :=
  let cx := s.ctx c
  let r : Release := { index := cx.gathering, fire := s.now, cause := 0, epoch := cx.epoch, digest := cx.digest, stagedDigest := 0
                       stagedTarget := 0, halt := false, abort := true, armed := false, commit := false, flags := 0, presence := 0
                       status := 0, cargo := Vector.replicate 4 0 }
  let s := s.releaseDown c r
  if c < numCtxs then s.abortCtx c else s.setCtx c Ctx.reset

/-- Domains with members or a relay's part on this device, by identifier. -/
def State.domainIds (s : State) : List Nat := s.fabric.grants.map Prod.fst

/-- MEMBER_LOST reaches or arises on this device: a lost member ends the domain, at the root by a release made for the
purpose; a lost relay makes the tree switch to its backup path, where the version has one: the device below it takes its backup
trunk as parent and says so there, and the device told over its own backup trunk takes that as a child (R349, R351).
[DEDUCED: log 70] -/
def State.memberLost (s : State) (id lost : Nat) (relay : Bool) (from_ : Option Nat) (time : Nat) : State :=
  match s.ctxOfDomain id, s.fabric.grants.find id with
  | some c, some g =>
    let u := linkUnit lMemberLost [(0, 2, id), (2, 2, lost), (4, 8, time)]
    let gone (t : Nat) : Bool := s.fabric.lostTrunks.contains t
    let s := ((List.range 6).filter (fun t => (g.parent == t || g.children.getLsbD t) && from_ != some t && !gone t)).foldl
      (fun s t => s.sendLink t u) s
    if relay && decide (0x21 ≤ (s.ctx c).version) then
      if gone g.parent && decide (g.backup < 6) then
        let s := s.sendLink g.backup u
        let g' : Grant := { g with parent := g.backup, backup := 0xFF }
        let s := { s with fabric := { s.fabric with grants := s.fabric.grants.set id g' } }
        s.modCtx c (fun cx => { cx with switching := true, gatherSent := false })
      else
        let kept := (List.range 6).filter (fun t => g.children.getLsbD t && !gone t)
        let joins := decide (g.backup < 6) && from_ == some g.backup
        let more : BitVec 6 := if joins then BitVec.ofNat 6 (2 ^ g.backup) else 0
        let g' : Grant := { g with children := BitVec.ofNat 6 (pack (kept.map (fun t => (t, 1, 1)))) ||| more
                                   backup := if joins then 0xFF else g.backup }
        let s := { s with fabric := { s.fabric with grants := s.fabric.grants.set id g' } }
        s.modCtx c (fun cx => { cx with switching := true })
    else if g.root || gone g.parent then s.abortTree c
    else s
  | _, _ => s

/-- Has every port of a trunk been without signal, or failed to retrain, for 20 µs (R349)? -/
def State.trunkLost (s : State) (t : Nat) : Bool :=
  (trunkPorts t).all (fun p =>
    let q := s.port p
    match q.state with
    | .failed => true
    | .signal => (match q.signalLostAt with
      | some x => decide (x + 20000 ≤ s.now)
      | none => false)
    | .down => true
    | _ => (match q.retrainStart with
      | some x => decide (x + 20000 ≤ s.now)
      | none => false))

/-- MEMBER_LOSS_DETECT: every port to a device has lost signal for 20 µs; each domain joined by the trunk learns it.
`relay` says that the lost device was only a relay of those domains (R349). -/
def execMemberLossDetect (trunk : Nat) (relay : Bool) (s : State) : Out :=
  if 6 ≤ trunk then .fault .noSuchUnit
  else if !s.trunkLost trunk || s.fabric.lostTrunks.contains trunk || !s.domainIds.any (fun id =>
      ((s.fabric.grants.find id).map (fun g => g.edges.contains trunk || (s.circuitTrunks id).contains trunk)).getD false) then .next s
  else
    let lost := (s.port (8 * trunk)).partner
    let gone := trunk :: s.fabric.lostTrunks
    let s := { s with fabric := { s.fabric with lostTrunks := gone } }
    .next ((s.domainIds.filter (fun id =>
      ((s.fabric.grants.find id).map (fun g => g.parent == trunk || g.children.getLsbD trunk)).getD false || (s.circuitTrunks id).contains trunk)).foldl
        (fun s id => s.memberLost id lost relay (some trunk) s.now) s)

/-- MEMBER_LOST (R349, R351); `relay` as in MEMBER_LOSS_DETECT. -/
def execMemberLost (p : Nat) (relay : Bool) (s : State) : Out :=
  if numPorts ≤ p then .fault .noSuchUnit
  else
    match (s.port p).headLink lMemberLost with
    | none => .next s
    | some (_, u) =>
      let f (o n : Nat) := fieldLE u.body.toNat o n
      .next ((s.modPort p GPort.pop).memberLost (f 0 2) (bits (f 2 2) 0 14) relay (some (trunkOf p)) (f 4 8))

/-! ### Replay over the fabric (R434, R438) -/

/-- REPLAY_HOLD: a device with a fault asks the root to withhold releases; on the way it passes up the tree (R434 step 1). -/
def execReplayHold (p : Nat) (s : State) : Out :=
  if numPorts ≤ p then .fault .noSuchUnit
  else
    match (s.port p).headLink lReplayHold with
    | none => .next s
    | some (_, u) =>
      let s := s.modPort p GPort.pop
      match s.ctxOfDomain (fieldLE u.body.toNat 0 2) with
      | none => .next s
      | some c =>
        match s.parentTrunk c with
        | some t => .next (s.sendLink t u)
        | none =>
          let r : Recovery := { class_ := 3, granule := none, vgranule := (0xFF, 0xFF), detected := s.now, lastFired := (s.ctx c).index, lost := true }
          .next (s.holdDomains [c] (fun _ => r))

/-- REPLAY_MARK: units of the domain's circuits on this port land again (R438 step 2). -/
def execReplayMark (p : Nat) (s : State) : Out :=
  if numPorts ≤ p then .fault .noSuchUnit
  else
    match (s.port p).headLink lReplayMark with
    | none => .next s
    | some (_, u) =>
      let s := s.modPort p GPort.pop
      let id := fieldLE u.body.toNat 0 2
      .next { s with fabric := { s.fabric with circuits := s.fabric.circuits.map (fun e =>
        if e.2.domain = id ∧ e.2.in_ ∧ s.homePort e.2.port = p then (e.1, { e.2 with discard := false }) else e) } }

end Sys2Proof.Machine
end

