-- ==== Sys2Proof/Machine/Blocks.lean ====
section
/-! DEFINITION. What a port takes from its partner (12_multi_device.md): the time base (R338, R339), blocks (R317, R320 to R322),
and the agreement of the tables that brings it UP (R324, R336). -/

namespace Sys2Proof.Machine

/-! ### The time base (R338, R339) -/

/-- The port toward the time parent, a partner on a shortest path to the master: the lowest-numbered UP port with the fewest hops;
none at the time master. [DEDUCED: log 61] -/
def State.timeParent (s : State) : Option Nat :=
  if s.fabric.master then none
  else
    let hops (p : Nat) : Option Nat := if (s.port p).state == .up then (s.port p).masterHops else none
    let l := (List.range 48).filterMap hops
    (List.range 48).find? (fun p => match hops p with
      | some h => l.all (fun x => decide (h ≤ x))
      | none => false)

/-- Every formation that waits on this device takes the step it can take now (R341). -/
def State.formAll (s : State) : State :=
  s.domainIds.foldl (fun s id => match s.ctxOfDomain id with
    | some c => s.formStep c
    | none => s) s

/-- The time a block takes on a link of `w` lanes, in 0.1 ns (R322). -/
def blockTenths (w : Nat) : Nat := 2048 / max w 1

/-- The offset to a partner, in 0.1 ns, of a block stamped `tstamp` that is complete now: its first symbol came a block's time ago,
over a fibre whose two directions delay alike (R338). -/
def State.timeOffset (s : State) (q : GPort) (tstamp : Nat) : Int :=
  10 * ((s.now : Int) - tstamp - q.fdelay) - blockTenths q.width

/-- The tenants that have a domain on the device (R339). -/
def State.domainTenants (s : State) : List Nat :=
  ((s.ctxs.filter (fun x => decide (x.1 < numCtxs) && x.2.loaded)).map (fun x => x.1 / 4)).eraseDups

/-- TIME_DISCIPLINE and TIME_DRIFT: e = e_parent + 0.5 ns + |offset|, in 0.5 ns, from a block of the time parent; beyond 20 ns the
device reports TIME_DRIFT and retrains the time of the port (R339). The clock frequency that takes the offset out is the rate at
which `now` moves. [DEDUCED: log 62] -/
def State.timeError (s : State) (p parent tstamp : Nat) : State :=
  let off := s.timeOffset (s.port p) tstamp
  let err := parent + 1 + cdiv off.natAbs 5
  let s := { s with fabric := { s.fabric with terr := min 127 err, offset := off } }
  if err ≤ 40 then
    let was := s.fabric.drifting
    let s := ({ s with fabric := { s.fabric with drifting := false } }).modPort p (fun q => { q with timeRetrains := 0, timeRetrainAt := none })
    if was then s.formAll else s
  else if s.fabric.drifting then s
  else
    let s := { s with fabric := { s.fabric with drifting := true } }
    let s := s.modPort p (fun q => { q.flag psTimeDrift with timeRetrainAt := some s.now })
    let b := body [(24, 2, err), (26, 1, p)]
    let s := s.postPF 0x12 0 b
    s.domainTenants.foldl (fun s n => s.postTenant n 0x12 0 0xFFFF b) s

/-- TIME_RETRAIN_TIMEOUT: a retraining of the time that ran 1 ms without restoring the bound; the third in a row is a
port fault (R339). -/
def execTimeRetrainTimeout (p : Nat) (s : State) : Out :=
  if numPorts ≤ p then .fault .noSuchUnit
  else
    let q := s.port p
    match q.timeRetrainAt with
    | none => .next s
    | some t =>
      if s.now < t + 1000000 ∨ !s.fabric.drifting then .next s
      else if 3 ≤ q.timeRetrains + 1 then
        .next ((s.setPort p { q with timeRetrains := 0, timeRetrainAt := none }).portFail p)
      else .next (s.setPort p { q with timeRetrains := q.timeRetrains + 1, timeRetrainAt := some s.now })

/-! ### Blocks (R317, R320 to R322) -/

/-- BLOCK_RECEIVE: a block whose codewords all decoded, whose CRC matches and whose SEQ is the next is accepted; any other, and all
up to a replay, is discarded and asked for again; its control word acknowledges, and its time stamp disciplines the time base
(R317, R320, R338, R339). `crc` is the CRC received, none where a codeword failed; `time` is its TSTAMP with what is known of the
partner's time, (hops to the master, its error e in 0.5 ns, TSTAMP); `units` its units as (position, kind, index, body).
[DESIGN CHOICE: log 158] -/
def execBlockReceive (p : Nat) (crc : Option Nat) (seq ack : Nat) (nak replay retrain : Bool) (time : Nat × Nat × Nat)
    (units : List (Nat × Nat × Nat × Nat)) (s : State) : Out :=
  if numPorts ≤ p then .fault .noSuchUnit
  else
    let q := s.port p
    let us := blockUnits units
    let good := crc == some (blockCrc us (controlLow seq ack nak replay retrain time.2.2))
    if !q.state.carries then .next s
    else if q.rxReplayWait && !replay then .next s
    else if !good || seq % 4096 != (q.rxSeq + 1) % 4096 then
      .next (s.setPort p { q.flag psCrc with crcCount := sat16 q.crcCount 1, rxReplayWait := true, sendNak := true })
    else
      let base := 80 * q.rxCount
      let got := us.map (fun u => ((base + u.1) % 512, replay, u.2))
      let q := { q with rxSeq := seq % 4096, rxCount := q.rxCount + 1, rxReplayWait := false, sendNak := false, rxq := q.rxq ++ got
                        masterHops := some time.1 }
      let q := if replay then q.flag psReplay else q
      let q := q.acked (ack % 4096) nak s.now
      let q := if retrain && q.state == .up then { (q.flag psRetrain).enter .align s.now with retrainStart := some s.now } else q
      let s := s.setPort p q
      .next (if s.timeParent = some p then s.timeError p time.2.1 time.2.2 else s)

/-! ### The tables (R324, R336) -/

/-- The CRC-32C of a slot table: 512 entries of 4 bytes. -/
def fsltCrc (t : Tbl (BitVec 32)) : Nat := crc32c ((List.range 512).flatMap (fun i => bytesLE 4 (((t.find i).map BitVec.toNat).getD 0)))
/-- The CRC-32C of a marker-pair table: 16 entries of 8 bytes. -/
def gmptCrc (t : Tbl DWord) : Nat := crc32c ((List.range 16).flatMap (fun i => bytesLE 8 (((t.find i).map BitVec.toNat).getD 0)))

/-- The four CRCs that a port sends in TABLES: both directions of the slot table, then of the marker-pair table. -/
def GPort.tableCrcs (q : GPort) : Nat :=
  packLE [(0, 4, fsltCrc q.fsltTx), (4, 4, fsltCrc q.fsltRx), (8, 4, gmptCrc q.gmptTx), (12, 4, gmptCrc q.gmptRx)]

/-- Do the CRCs of the partner's tables agree with this port's: what one end sends is what the other receives (R324, R336)? -/
def GPort.tablesAgree (q : GPort) (peer : Nat) : Bool :=
  fieldLE peer 4 4 == fsltCrc q.fsltTx && fieldLE peer 0 4 == fsltCrc q.fsltRx && fieldLE peer 12 4 == gmptCrc q.gmptTx &&
    fieldLE peer 8 4 == gmptCrc q.gmptRx

/-- TABLES_CHECK: the CRCs `peer` of the partner's slot and marker tables agree with this port's, and it is UP (R324, R336); a port
that retrained sends again what is not acknowledged (R322), and formations that waited for the link go on (R341). -/
def execTablesCheck (p peer : Nat) (s : State) : Out :=
  if numPorts ≤ p then .fault .noSuchUnit
  else
    let q := s.port p
    if q.state == .tables && q.tablesAgree peer then
      let again := q.retrainStart.isSome
      let q := { q.enter .up s.now with retrainStart := none, ackAt := s.now, nakCount := 0, lossReported := false }
      let q := match q.replay with
        | b :: _ => if again then { q with replayFrom := some ((b.seq + 4095) % 4096) } else q
        | [] => q
      let s := { s.setPort p q with fabric := { s.fabric with lostTrunks := s.fabric.lostTrunks.filter (fun t => t ≠ trunkOf p) } }
      let s := s.capChangeAll
      .next ((if again then s.portEvent p 5 else s).formAll)
    else .next s

end Sys2Proof.Machine
end

