-- ==== Sys2Proof/Machine/Stacks.lean ====
section
/-! DEFINITION. Failed Hold stacks (R235, R236, R442) and the Lockkeeper's warm restarts and failure (R385, R447). -/

namespace Sys2Proof.Machine

/-! ### Hold stacks -/

/-- STACK_FAILURE: training, refresh or the base die's answers fail, or the lines rebuilt in one second are too many (R442). -/
def execStackFailure (k : Nat) (s : State) : Out := if 32 ≤ k then .fault .noSuchUnit else .next (s.failStack k)

/-- BACKGROUND_REBUILD_DONE: every lost data line of the quadrant is held again, in the parity position of its stripe (R235).
[DEDUCED: log 43] -/
def execBackgroundRebuildDone (q : Nat) (s : State) : Out :=
  if 4 ≤ q then .fault .noSuchUnit
  else
    let quad := Tbl.get {} s.quadrants q
    if quad.failed.length != 1 || quad.rebuilt || !(s.stack (8 * q)).rebuilding then .next s
    else
      let s := { s with quadrants := s.quadrants.set q { quad with rebuilt := true } }
      .next ((List.range 8).foldl (fun (s : State) i =>
        let u := s.stack (8 * q + i)
        s.setStack (8 * q + i) { u with rebuilding := false, progress := 100 }) s)

/-! ### The Lockkeeper (R385, R447) -/

/-- An outcome with a status alone. -/
def Resp.status_ (status : Nat) : Resp := { status := status, rflags := 0, slot := 0, detail := 0, gen := 0, len := 0, data := 0 }

/-- Commands before their commit point end with `status` and no effect; every response under way is held back while
`hold` (R385). -/
def State.catchCommands (s : State) (status : Nat) (hold : Bool) : State :=
  { s with fns := s.fns.map (fun p =>
      if p.2.busy then
        (p.1, { p.2 with caught := hold, resp := match p.2.resp with
          | some r => some r
          | none => some (Resp.status_ status) })
      else p) }

/-- LOCKKEEPER_FAILED: LK_STATE becomes FAILED and every function is told (R447). -/
def State.lkFail (s : State) (cause : Nat) : State :=
  if s.lk.state = .failed then s
  else
    let s := { s with lk := { state := .failed } }
    let s := s.catchCommands stTenantFault false
    s.postAll 0x42 0 (body [(24, 1, cause)])

/-- Restarts of a pair within the last second, this one among them. -/
def LkPair.restart (p : LkPair) (now : Nat) : LkPair :=
  { since := some now, recent := (now :: p.recent).filter (fun t => decide (now < t + 1000000000)) }

/-- A pair restarts alone from the verified copy; a mismatch of both within one restart, or a third restart within 1 s,
puts the Lockkeeper in FAILED (R447). [DEDUCED: log 74] -/
def State.restartPair (s : State) (pair : Nat) (mismatch : Bool) : State :=
  if (s.lk.state ≠ .ready ∧ s.lk.state ≠ .restarting) then s
  else
    let mine := if pair = 0 then s.lk.pair0 else s.lk.pair1
    let other := if pair = 0 then s.lk.pair1 else s.lk.pair0
    if mine.since.isSome then s
    else if mismatch && other.since.isSome && other.mismatched then s.lkFail 1
    else
      let p : LkPair := { mine.restart s.now with mismatched := mismatch }
      let s := s.faultEvent 8 7 pair 0 0 0 0
      if 3 ≤ p.recent.length then s.lkFail 2
      else if pair = 0 then ({ s with lk := { s.lk with pair0 := p, state := .restarting } }).catchCommands stBusy true
      else { s with lk := { s.lk with pair1 := p } }

/-- SRAM_COPY_ERROR: an uncorrectable error strikes the Lockkeeper's SRAM copy (R447). -/
def execSramCopyError (s : State) : Out :=
  if s.lk.state = .ready ∨ s.lk.state = .restarting then .next (s.lkFail 3) else .next s

/-- WARM_RESTART_END: the pair's restart ends; the commands it caught complete, and every function that has an event queue
is told the restart's length (R385). -/
def execWarmRestartEnd (pair : Nat) (s : State) : Out :=
  if 2 ≤ pair then .fault .noSuchUnit
  else
    let p := if pair = 0 then s.lk.pair0 else s.lk.pair1
    match p.since with
    | none => .next s
    | some t0 =>
      let p' := { p with since := none, mismatched := false }
      let s := if pair = 0 then { s with lk := { s.lk with pair0 := p', state := .ready } } else { s with lk := { s.lk with pair1 := p' } }
      let s := if pair = 0 then { s with fns := s.fns.map (fun q => (q.1, { q.2 with caught := false })) } else s
      let e := s.event 3 1 0xFFFF 0xFFFF (body [(24, 4, (s.now - t0) / 1000)])
      .next (s.fns.foldl (fun s q => if q.2.eq.isSome then s.postTo q.1 e else s) s)

end Sys2Proof.Machine
end

