-- ==== Sys2Proof/Machine/Mailbox.lean ====
section
/-! DEFINITION. Mailboxes: the page and its doorbell, command checks, results, sessions and event queues
(14_mailboxes.md, R378 to R403). -/

namespace Sys2Proof.Machine

/-! ### The command table (R403) -/

/-- Who may issue a command. -/
inductive By where
  | any | pf | vf | both | debug
  deriving DecidableEq, Repr

/-- One command: its code, issuers, kind, version and the payload bytes it names as (offset, length). -/
structure CmdRow where
  code : Nat
  by_ : By
  deferred : Bool
  since : Nat
  named : List (Nat × Nat)

def v20 : Nat := 0x0200
def v30 : Nat := 0x0300
def v32 : Nat := 0x0302
def v34 : Nat := 0x0304

/-- Groups 0x00xx to 0x03xx. -/
def cmdTable1 : List CmdRow :=
  [⟨0x0001, .any, false, v20, [(16, 4)]⟩, ⟨0x0002, .any, false, v20, []⟩, ⟨0x0003, .any, false, v20, [(16, 9)]⟩,
   ⟨0x0004, .any, false, v20, [(16, 1), (20, 4)]⟩, ⟨0x0005, .any, true, v20, [(16, 3)]⟩,
   ⟨0x0101, .pf, true, v20, [(16, 5), (24, 9), (34, 6)]⟩, ⟨0x0102, .both, true, v20, [(16, 1)]⟩,
   ⟨0x0103, .pf, true, v20, [(16, 1)]⟩, ⟨0x0104, .both, false, v20, [(16, 1)]⟩,
   ⟨0x0105, .pf, false, v20, [(16, 1), (24, 8)]⟩,
   ⟨0x0201, .vf, true, v20, []⟩, ⟨0x0202, .vf, false, v20, [(16, 2), (24, 16)]⟩, ⟨0x0203, .vf, true, v32, [(16, 2)]⟩,
   ⟨0x0301, .both, false, v20, [(16, 2)]⟩, ⟨0x0302, .vf, true, v20, [(16, 2), (20, 4)]⟩,
   ⟨0x0303, .vf, true, v20, [(16, 2)]⟩, ⟨0x0304, .vf, true, v34, [(16, 2)]⟩]

/-- Groups 0x04xx and 0x05xx. -/
def cmdTable2 : List CmdRow :=
  [⟨0x0401, .both, false, v20, [(16, 2)]⟩, ⟨0x0402, .vf, false, v20, [(16, 4), (24, 8)]⟩,
   ⟨0x0403, .vf, false, v20, [(16, 2)]⟩, ⟨0x0404, .vf, true, v30, [(16, 2)]⟩, ⟨0x0405, .vf, true, v30, [(16, 2)]⟩,
   ⟨0x0406, .vf, false, v30, [(16, 2)]⟩, ⟨0x0407, .vf, false, v20, [(16, 2)]⟩, ⟨0x0408, .both, true, v20, [(16, 2)]⟩,
   ⟨0x0410, .pf, false, v20, [(16, 14), (32, 6), (40, 6), (48, 6), (56, 6), (64, 6)]⟩,
   ⟨0x0411, .pf, false, v20, [(16, 3), (20, 2)]⟩,
   ⟨0x0501, .pf, false, v20, [(16, 1)]⟩, ⟨0x0502, .pf, false, v20, [(16, 4)]⟩, ⟨0x0503, .pf, true, v20, []⟩,
   ⟨0x0504, .pf, true, v20, []⟩, ⟨0x0505, .pf, false, v20, [(16, 1), (18, 7)]⟩,
   ⟨0x0506, .pf, false, v20, [(16, 1), (18, 7), (32, 8)]⟩, ⟨0x0507, .pf, false, v20, [(24, 8)]⟩,
   ⟨0x0508, .both, false, v20, [(16, 9)]⟩]

/-- Groups 0x06xx to 0x08xx. -/
def cmdTable3 : List CmdRow :=
  [⟨0x0601, .pf, false, v20, [(16, 8)]⟩, ⟨0x0602, .pf, true, v20, [(16, 8)]⟩, ⟨0x0603, .pf, true, v20, []⟩,
   ⟨0x0604, .pf, false, v20, []⟩, ⟨0x0701, .pf, false, v20, [(16, 7)]⟩, ⟨0x0702, .both, false, v20, []⟩,
   ⟨0x0703, .pf, false, v20, [(16, 1), (18, 2)]⟩, ⟨0x0704, .pf, false, v20, [(18, 2), (24, 232)]⟩,
   ⟨0x0705, .pf, true, v20, []⟩, ⟨0x0706, .pf, true, v20, [(16, 4)]⟩,
   ⟨0x0801, .debug, false, v20, [(16, 3), (20, 6)]⟩, ⟨0x0802, .debug, false, v20, [(16, 3), (20, 6), (32, 224)]⟩,
   ⟨0x0803, .debug, false, v20, [(16, 3), (20, 2)]⟩, ⟨0x0804, .debug, false, v20, [(16, 6), (24, 8)]⟩,
   ⟨0x0805, .debug, true, v20, [(16, 2), (20, 4)]⟩]

def cmdTable : List CmdRow := cmdTable1 ++ cmdTable2 ++ cmdTable3

def cmdRow (code : Nat) : Option CmdRow := cmdTable.find? (fun r => r.code == code)

/-! ### Outcomes -/

/-- An outcome with status and detail alone. -/
def Resp.fail (status detail : Nat) : Resp := { Resp.status_ status with detail := detail }
/-- DENIED with a reason and an offset (R390). -/
def Resp.denied (reason offset : Nat) : Resp := Resp.fail stDenied (4096 * reason + offset % 4096)
/-- OK with `len` bytes of payload. -/
def Resp.ok (len : Nat) (data : Nat) : Resp := { Resp.status_ stOK with len := len, data := BitVec.ofNat 1920 data }
/-- OK without payload. -/
def Resp.done : Resp := Resp.ok 0 0

/-- The outcome of the command under way of a function is decided, and its turn is over; COMMAND_COMPLETE writes it (R374, R381,
R385). -/
def State.respond (s : State) (f : Nat) (r : Resp) : State :=
  { s.modFn f (fun x => { x with resp := some r }) with lk := { s.lk with served := f } }

/-! ### An accepted command and its checks (R387, R390, R391, R395, R396, R403) -/

/-- A function that exists on its port; none answers while the effective PWR_GOOD is low (R470). -/
def State.fnExists (s : State) (f : Nat) : Bool :=
  decide (f < 514) && s.boot.phase != .off && (s.fnsOf (fnNum f)).contains f

/-- The tenant of a virtual function. -/
def fnTenant (f : Nat) : Option Nat := if fnNum f = 0 then none else some (fnNum f - 1)

/-- The accepted command of a function that the Lockkeeper has not taken yet: its copy of MBX_CMD. -/
def Fn.waitingCmd (x : Fn) : Option Nat :=
  match x.accepted, x.resp with
  | some (c, _), none => some c.toNat
  | _, _ => none

/-- Is a command a tenant set-up or release, whose first steps are taken in the order of their doorbells (R363)? -/
def reserves (c : Nat) : Bool := fieldLE c 0 2 == 0x0101 || fieldLE c 0 2 == 0x0103

/-- Does a set-up or release of an earlier doorbell keep this command waiting (R363)? -/
def State.reserveWaits (s : State) (x : Fn) (c : Nat) : Bool :=
  reserves c && s.fns.any (fun p => decide (p.2.order < x.order) && (p.2.waitingCmd.map reserves).getD false)

/-- Has a function a command that the Lockkeeper could take now? -/
def State.offers (s : State) (f : Nat) : Bool :=
  s.fnExists f && (match (s.fn f).waitingCmd with
    | some c => !s.reserveWaits (s.fn f) c
    | none => false)

/-- How many places behind the function served last a function stands in the round. -/
def State.turnOf (s : State) (f : Nat) : Nat := (f + 513 - s.lk.served) % 514

/-- The command under way of a function, not yet executed: its copy of MBX_CMD. Functions of both ports are served in round-robin
order, one command per turn (R374, R379). [DESIGN CHOICE: log 169] -/
def State.underWay (s : State) (f : Nat) : Option Nat :=
  if s.lk.state = .ready ∧ s.offers f ∧ s.fns.all (fun p => !s.offers p.1 || decide (s.turnOf f ≤ s.turnOf p.1)) then
    (s.fn f).waitingCmd
  else none

/-- The first nonzero payload byte that the command does not name or that lies beyond LEN (R387). -/
def reservedByte (named : List (Nat × Nat)) (c : Nat) : Option Nat :=
  (List.range 240).map (fun i => 16 + i) |>.find? (fun i =>
    fieldLE c i 1 != 0 && (decide (16 + fieldLE c 4 2 ≤ i) || !named.any (fun p => decide (p.1 ≤ i) && decide (i < p.1 + p.2))))

/-- The bytes that a command names; a VF's TELEMETRY and BEAGLE name them by their kind (R424, R425). -/
def namedBytes (r : CmdRow) (c : Nat) : List (Nat × Nat) :=
  if r.code = 0x0508 then
    let k := fieldLE c 16 1
    if k = 4 then [(16, 9)] else if k = 5 then [(16, 7)] else [(16, 6)]
  else if r.code = 0x0804 then [(16, 6), (24, 8)]
  else r.named

/-- Does the "By" column name the function, and does its tenant hold the debug right where needed (R377, R403)? -/
def State.permitted (s : State) (f : Nat) (b : By) : Bool :=
  match fnTenant f with
  | none => b == .any || b == .pf || b == .both
  | some t => b == .any || b == .vf || b == .both || (b == .debug && (s.tenant t).debug)

/-- The outcome that refuses a command before its own checks: session, code, header, permission, tenant state, version,
reserved bytes; none where it passes. [DEDUCED: log 83, 84] -/
def State.refusal (s : State) (f c : Nat) : Option Resp :=
  let code := fieldLE c 0 2
  let fn := s.fn f
  if fn.version.isNone && code != 0x0001 then some (Resp.fail stVersion 1)
  else match cmdRow code with
    | none => some (Resp.fail stNoCap 0)
    | some r =>
      let hdr := [2, 3, 6, 7].find? (fun i => fieldLE c i 1 != 0 && (i != 3 || !r.deferred))
      match hdr with
      | some i => some (Resp.denied 2 i)
      | none =>
        if 15 < fieldLE c 3 1 then some (Resp.denied 3 3)
        else if 240 < fieldLE c 4 2 then some (Resp.denied 3 4)
        else if !s.permitted f r.by_ then some (Resp.denied 1 0)
        else
          let idle : Bool := match fnTenant f with
            | none => false
            | some t => (s.tenant t).st != .active && !(code == 0x0102 && (s.tenant t).st == .resetting)
          if idle then some (Resp.denied 6 0)
          else if code != 0x0001 && decide (fn.version.getD 0 < r.since) then some (Resp.fail stNoCap 0)
          else (reservedByte (namedBytes r c) c).map (fun i => Resp.denied 2 i)

/-- An immediate command of code `code`: `run` gives its effect and outcome once the common checks pass. [DEDUCED: log 88] -/
def immediate (f code : Nat) (s : State) (run : Nat → State → State × Resp) : Out :=
  if 514 ≤ f then .fault .noSuchUnit
  else match s.underWay f with
    | none => .next s
    | some c =>
      if fieldLE c 0 2 ≠ code then .next s
      else match s.refusal f c with
        | some r => .next (s.respond f r)
        | none =>
          let (s, r) := run c s
          .next (s.respond f r)

/-- A deferred command: `early` refuses it at once; else its slot begins a generation, and `start` does the work under the
slot's name for `settle` (R391). [DEDUCED: log 112] -/
def deferredCmd (f code : Nat) (s : State) (early : Nat → Option Resp) (start : Nat → Nat → State → State) : Out :=
  if 514 ≤ f then .fault .noSuchUnit
  else match s.underWay f with
    | none => .next s
    | some c =>
      if fieldLE c 0 2 ≠ code then .next s
      else match (s.refusal f c).or (early c) with
        | some r => .next (s.respond f r)
        | none =>
          let fn := s.fn f
          let k := fieldLE c 3 1
          let sl := Tbl.get {} fn.slots k
          if sl.running then .next (s.respond f (Resp.status_ stBusy))
          else
            let g := sl.gen + 1
            let slots := fn.slots.set k { sl with gen := g, running := true, code := code, cmd := BitVec.ofNat 2048 c, ready := none }
            let s := s.setFn f { fn with slots := slots }
            let s := s.respond f { Resp.done with rflags := 4, slot := k, gen := g }
            .next (start c (k + 16 * fn.epoch) s)

/-! ### The page (R378, R380 to R384) -/

/-- DOORBELL: a write of RING submits MBX_CMD; while BUSY, or in the nanosecond in which BUSY falls, it is dropped. While the
Lockkeeper is not READY the mailbox logic itself answers (R381, R383, R384). -/
def execDoorbell (f val : Nat) (s : State) : Out :=
  if 514 ≤ f then .fault .noSuchUnit
  else if !s.fnExists f || !bit val 0 then .next s
  else
    let fn := s.fn f
    if fn.busy || fn.fell == some s.now then .next (s.setFn f { fn with doorbellDropped := true })
    else
      let own := match s.lk.state with
        | .ready => none
        | .booting => some (Resp.status_ stNotReady)
        | .restarting => some (Resp.status_ stBusy)
        | .failed => some (Resp.status_ stTenantFault)
      .next { s.setFn f { fn with rspValid := false, busy := true, accepted := some (fn.cmd, fn.seq), acceptedAt := s.now
                                  order := s.lk.doorbells, resp := own } with
        lk := { s.lk with doorbells := s.lk.doorbells + 1 } }

/-- Is a BAR0 access naturally aligned, of 4 or 8 bytes, within the page (R378)? -/
def barAccess (off size : Nat) : Bool := (size == 4 || size == 8) && off % size == 0 && decide (off < 0x2000)

/-- MBX_WRITE: a write of `size` bytes to MBX_CMD or MBX_SEQ; while BUSY it is dropped (R381). -/
def execMbxWrite (f off size val : Nat) (s : State) : Out :=
  if 514 ≤ f then .fault .noSuchUnit
  else if !s.fnExists f || !barAccess off size then .next s
  else
    let fn := s.fn f
    let isCmd := decide (0x100 ≤ off) && decide (off < 0x200)
    let isSeq := off / 8 == 3
    if !isCmd && !isSeq then .next s
    else if fn.busy then .next (s.setFn f { fn with writeDropped := true })
    else if isCmd then
      .next (s.setFn f { fn with cmd := BitVec.ofNat 2048 (setBits fn.cmd.toNat (8 * (off - 0x100)) (8 * size) val) })
    else if off = 0x18 then .next (s.setFn f { fn with seq := BitVec.ofNat 16 val })
    else .next s

/-- An OVERFLOW entry that waits is written once the ring has room (R401). -/
def State.eqFlush (s : State) (f : Nat) : State :=
  let fn := s.fn f
  match fn.eq with
  | none => s
  | some q =>
    if fn.lost = 0 ∨ eqFull q fn.eqHead then s
    else (s.eqWrite f q (overflowEvent s.now fn.lost)).modFn f (fun x => { x with lost := 0 })

/-- A write to entry `e` of the MSI-X table: bytes [o, o + size) of its 16. -/
def MsixEntry.write (e : MsixEntry) (o size val : Nat) : MsixEntry :=
  let old := packLE [(0, 8, e.addr.toNat), (8, 4, e.data.toNat), (12, 4, b2n e.masked)]
  let new := setBits old (8 * o) (8 * size) val
  { addr := BitVec.ofNat 64 (fieldLE new 0 8), data := BitVec.ofNat 32 (fieldLE new 8 4), masked := bit new 96 }

/-- Pending vectors whose entries are not masked are sent. -/
def Fn.sendPending (x : Fn) : Fn :=
  [0, 1].foldl (fun (x : Fn) v =>
    let masked := if v = 0 then x.vec0.masked else x.vec1.masked
    if x.pba.getLsbD v && !masked then { x with pba := x.pba &&& ~~~BitVec.ofNat 2 (2 ^ v), msix := x.msix ++ [v] } else x) x

/-- A write of `size` bytes at offset `off` of BAR2: the two entries of the MSI-X table (R378). -/
def Fn.writeMsix (x : Fn) (off size val : Nat) : Fn :=
  if !(size == 4 || size == 8) || off % size != 0 then x
  else if off < 16 then { x with vec0 := x.vec0.write off size val }.sendPending
  else if off < 32 then { x with vec1 := x.vec1.write (off - 16) size val }.sendPending
  else x

/-- Where the operand of REGISTER_WRITE counts the offsets of BAR2 from. [PRESUMED: log 171] -/
def bar2 : Nat := 0x10000

/-- REGISTER_WRITE: a write of `size` bytes to a register of a function's BARs with no row of its own: MBX_CTRL's RW fields,
MBX_STATUS's W1C flags, and from offset 0x10000 the MSI-X table of BAR2; every other offset ignores it (R13, R96, R378, R380). -/
def execRegisterWrite (f off size val : Nat) (s : State) : Out :=
  if 514 ≤ f then .fault .noSuchUnit
  else if !s.fnExists f then .next s
  else if bar2 ≤ off then .next (s.modFn f (fun x => x.writeMsix (off - bar2) size val))
  else if !barAccess off size then .next s
  else
    let fn := s.fn f
    if off = 0 then
      let fn := { fn with irqRsp := bit val 0, irqEvt := bit val 1, eqHead := bits val 16 16 }
      .next ((s.setFn f fn).eqFlush f)
    else if off = 8 then
      .next (s.setFn f { fn with doorbellDropped := fn.doorbellDropped && !bit val 5, writeDropped := fn.writeDropped && !bit val 6
                                 eqOverflow := fn.eqOverflow && !bit val 7 })
    else .next s

/-- The 256 bytes of MBX_RSP (R388). -/
def rspBytes (seq : Nat) (r : Resp) : Nat :=
  packLE [(0, 2, seq), (2, 2, r.status), (4, 1, r.rflags), (5, 1, r.slot), (6, 2, r.detail), (8, 4, r.gen), (12, 2, r.len),
    (16, 240, r.data.toNat)]

/-- COMMAND_COMPLETE: the response is written with the copied SEQ; RSP_VALID rises and BUSY falls (R381). A command that no
row executes is refused here: an unknown CODE, or a TELEMETRY or BEAGLE kind that is not listed (R390). -/
def execCommandComplete (f : Nat) (s : State) : Out :=
  if 514 ≤ f then .fault .noSuchUnit
  else
    let fn := s.fn f
    match fn.accepted with
    | none => .next s
    | some (c, seq) =>
      let c := c.toNat
      let orphan := match cmdRow (fieldLE c 0 2) with
        | none => some (Resp.fail stNoCap 0)
        | some r =>
          if (r.code = 0x0508 ∧ 5 < fieldLE c 16 1) ∨ (r.code = 0x0804 ∧ 6 < fieldLE c 16 1) then some (Resp.denied 3 16) else none
      let r := match fn.resp with
        | some r => some r
        | none => if (s.underWay f).isSome then orphan.map (fun o => (s.refusal f c).getD o) else none
      match r with
      | none => .next s
      | some r =>
        if fn.caught then .next s
        else
          let done : Fn := { fn with rsp := BitVec.ofNat 2048 (rspBytes seq.toNat r), rspValid := true, busy := false
                                     accepted := none, resp := none, fell := some s.now }
          let s := if fn.resp.isNone then { s with lk := { s.lk with served := f } } else s
          .next (s.setFn f (if fn.irqRsp then done.vector 0 else done))

/-- DEFERRED_COMMAND_COMPLETE: the result of a slot is published and RESULT_READY goes to the function (R391, R392). -/
def execDeferredCommandComplete (f slot : Nat) (s : State) : Out :=
  if 514 ≤ f ∨ 16 ≤ slot then .fault .noSuchUnit
  else
    let fn := s.fn f
    let sl := Tbl.get {} fn.slots slot
    match sl.ready with
    | none => .next s
    | some r =>
      if s.lk.state ≠ .ready ∨ !sl.running then .next s
      else
        let sl := { sl with running := false, ready := none, done := some r, read := false }
        let s := s.setFn f { fn with slots := fn.slots.set slot sl }
        .next (s.postTo f (s.event 1 0 ((fnTenant f).getD 0xFFFF) 0xFFFF (body [(24, 1, slot), (26, 2, r.code), (28, 4, r.gen),
          (32, 2, r.status), (34, 2, r.detail)])))

/-! ### Session commands (R392, R395, R400, R401) -/

/-- Has any slot a running generation? -/
def Fn.anyRunning (fn : Fn) : Bool := fn.slots.any (fun p => p.2.running)

/-- Mailbox protocol versions of release 4.2, as major × 256 + minor. -/
def mbxMin : Nat := 0x0200
def mbxMax : Nat := 0x0304

/-- Bank number as the events and FW_STATUS give it. -/
def bankOf (b : Bool) : Nat := if b then 1 else 0

/-- An open firmware update is aborted: its bank stays unbootable (R491). -/
def State.fwAbort (s : State) (cause : Nat) : State :=
  match s.boot.update with
  | none => s
  | some _ => ({ s with boot := { s.boot with update := none } }).postPF 0x61 2 (body [(24, 1, cause)])

/-- The end of a provider session aborts the update that it opened (R491). -/
def State.sessionEnds (s : State) (f : Nat) : State :=
  match s.boot.update with
  | some u => if fnNum f = 0 ∧ fnPort f = u.port then s.fwAbort 1 else s
  | none => s

/-- HELLO: the highest version in both ranges opens a session and renumbers the slots (R395). -/
def execHello (f : Nat) (s : State) : Out :=
  immediate f 0x0001 s (fun c s =>
    let fn := s.fn f
    let lo := fieldLE c 17 1 * 256 + fieldLE c 16 1
    let hi := fieldLE c 19 1 * 256 + fieldLE c 18 1
    let v := min hi mbxMax
    let s' := s.sessionEnds f
    let range := [(2, 1, mbxMin % 256), (3, 1, mbxMin / 256), (4, 1, mbxMax % 256), (5, 1, mbxMax / 256)]
    if fn.version.isSome && fn.anyRunning then (s, Resp.status_ stBusy)
    else if hi < lo ∨ v < lo ∨ v < mbxMin then
      (s'.modFn f (fun fn => { fn with version := none, slots := [] }), { Resp.fail stVersion 0 with len := 6, data := BitVec.ofNat 1920 (packLE range) })
    else
      (s'.modFn f (fun fn => { fn with version := some v, slots := [] }),
       Resp.ok 20 (packLE ([(0, 1, v % 256), (1, 1, v / 256)] ++ range ++ [(6, 2, fnNum f), (8, 1, fnPort f),
         (9, 1, (fnTenant f).getD 0xFF), (10, 2, 0x0402), (12, 8, Config.serial.toNat)]))))

/-- GOODBYE: the session ends, unless a generation is running (R395). -/
def execGoodbye (f : Nat) (s : State) : Out :=
  immediate f 0x0002 s (fun _ s =>
    let fn := s.fn f
    if fn.anyRunning then (s, Resp.status_ stBusy) else
      ((s.sessionEnds f).modFn f (fun fn => { fn with version := none, slots := [] }), Resp.done))

/-- Held events go into a new ring in order, as many as fit; the others are lost (R401). [DEDUCED: log 86] -/
def State.drainHeld (s : State) (f : Nat) : List Event → State × Nat
  | [] => (s, 0)
  | e :: r =>
    let fn := s.fn f
    match fn.eq with
    | none => (s, 0)
    | some q =>
      if eqFull q fn.eqHead then (s.setFn f { fn with lost := fn.lost + r.length + 1, eqOverflow := true }, 0)
      else
        let (s, n) := (s.eqWrite f q e).drainHeld f r
        (s, n + 1)

/-- EQ_CONFIG: the event queue is set at its base with 2^L entries, or disabled; held events are written (R400, R401). -/
def execEqConfig (f : Nat) (s : State) : Out :=
  immediate f 0x0003 s (fun c s =>
    let base := fieldLE c 16 8
    let l := fieldLE c 24 1
    let fn := s.fn f
    if base = 0 then (s.setFn f { fn with eq := none, eqHead := 0 }, Resp.ok 4 0)
    else if base % 4096 ≠ 0 then (s, Resp.denied 3 16)
    else if l < 6 ∨ 16 < l then (s, Resp.denied 3 24)
    else
      let held := fn.held
      let fn := { fn with eq := some { base := base, logLen := l, tail := 0, phase := true, evseq := 0 }, eqHead := 0, held := [] }
      let (s, n) := (s.setFn f fn).drainHeld f held
      ((s.eqFlush f), Resp.ok 4 n))

/-- READ_RESULT: the newest completed generation of a slot, any number of times (R392, R403). [DEDUCED: log 85] -/
def execReadResult (f : Nat) (s : State) : Out :=
  immediate f 0x0004 s (fun c s =>
    let k := fieldLE c 16 1
    let g := fieldLE c 20 4
    let fn := s.fn f
    let sl := Tbl.get {} fn.slots k
    if 16 ≤ k then (s, Resp.denied 3 16)
    else match sl.done with
      | none => (s, Resp.status_ stNotReady)
      | some r =>
        if r.gen < g then (s, Resp.status_ stNotReady)
        else if g < r.gen then (s, Resp.denied 4 0)
        else
          (s.setFn f { fn with slots := fn.slots.set k { sl with read := true } },
           { Resp.ok 240 (packLE [(0, 4, r.gen), (4, 2, r.code), (6, 2, r.status), (8, 2, r.detail), (10, 1, r.flags), (11, 1, r.len),
               (16, 224, r.data.toNat)]) with rflags := if sl.read then 1 else 0 }))

end Sys2Proof.Machine
end

