-- ==== Sys2Proof/Machine/Image.lean ====
section
/-! DEFINITION. Firmware and profile images: header, signature slots and the checks of R482 and R483. -/

namespace Sys2Proof.Machine

/-- What an accepted firmware image carries: its release, security version and digest, and the slots it ignored with their
KEYID and whether the key is revoked. -/
structure FwImage where
  release : Nat
  svn : Nat
  digest : BitVec 384
  ignored : List (Nat × Nat × Bool)
  deriving DecidableEq, Repr

/-- Bytes of an image as a number. -/
def imgField (m : Mem) (off n : Nat) : Nat := m.readLE off n

/-- A digest as a number, byte 0 least significant. -/
def digestNum (l : List Byte) : BitVec 384 := BitVec.ofNat 384 (ofBytesLE l)

/-- The state of one signature slot at `off`: unrevoked and verifying, or ignored (R483). -/
def slotOk (m : Mem) (revoked : BitVec 4) (off : Nat) : Bool :=
  let key := imgField m off 4
  decide (key < 4) && digestNum (sha384 (m.bytes (off + 16) 97)) == Config.vendorKey key && !revoked.getLsbD key &&
  ecdsaVerify (m.bytes (off + 16) 97) (m.bytes (off + 128) 96) (m.bytes 0 72 ++ m.bytes off 16) &&
  imgField m (off + 4) 2 == imgField m 8 2 && imgField m (off + 8) 4 == imgField m 12 4

/-- The reserved bytes of the header are zero. -/
def headerZero (m : Mem) : Bool := imgField m 6 2 == 0 && imgField m 10 2 == 0 && imgField m 584 3512 == 0

/-- The firmware image checks in the order of R483, over an image whose stored length is at most `len`: the number of the
first that fails, or what the image carries. [DEDUCED: log 96] -/
def checkFirmware (m : Mem) (len : Nat) (revoked : BitVec 4) (fuses : Nat) : Except Nat FwImage :=
  let bodyLen := imgField m 16 8
  let svn := imgField m 12 4
  if imgField m 0 4 ≠ 0x5746574C ∨ imgField m 4 1 ≠ 1 ∨ imgField m 5 1 ≠ 1 ∨ !headerZero m ∨ 6 * 2 ^ 20 < bodyLen ∨ 64 < svn ∨
      len < 4096 + bodyLen then .error 1
  else if imgField m 24 48 ≠ ofBytesLE (sha384 (m.bytes 4096 bodyLen)) then .error 2
  else
    let ok := [72, 328].map (slotOk m revoked)
    let bad := ([(0, 72), (1, 328)].zip ok).filterMap (fun q => if q.2 then none else
      let key := imgField m q.1.2 4
      some (q.1.1, key, decide (key < 4) && revoked.getLsbD key))
    if !ok.any id then .error 3
    else if svn < fuses then .error 5
    else .ok { release := imgField m 8 2, svn := svn, digest := digestNum (sha384 (m.bytes 0 (4096 + bodyLen))), ignored := bad }

/-- The image that the module left manufacture with (R485): release 4.2. [DESIGN CHOICE: log 15] -/
def factoryImage : FwImage := { release := 0x0402, svn := 0, digest := Config.factoryDigest, ignored := [] }

/-- The image of a bank, checked (R483). -/
def Bank.check (b : Bank) (revoked : BitVec 4) (fuses : Nat) : Except Nat FwImage :=
  if b.factory then (if fuses = 0 then .ok factoryImage else .error 5)
  else checkFirmware b.image (120 * 2 ^ 20) revoked fuses

def State.bank (s : State) (b : Nat) : Bank := if b = 0 then s.nv.bankA else s.nv.bankB
def State.setBank (s : State) (b : Nat) (v : Bank) : State :=
  { s with nv := if b = 0 then { s.nv with bankA := v } else { s.nv with bankB := v } }

end Sys2Proof.Machine
end

