-- ==== Sys2Proof/Machine/Desc.lean ====
section
/-! DEFINITION. Descriptor lists in host memory (R393, R394). -/

namespace Sys2Proof.Machine

/-- The buffers of a descriptor list from entry `i` (entry `k` of its segment) at `a`: pairs of address and length, or the
index of the entry that breaks the rules of R393. -/
def descWalk (m : Mem) : Nat → Nat → Nat → Nat → Except Nat (List (Nat × Nat))
  | 0, i, _, _ => .error i
  | n + 1, i, k, a =>
    let addr := m.readLE a 8
    let len := m.readLE (a + 8) 4
    let flags := m.readLE (a + 12) 4
    if 256 ≤ k ∨ 4 ≤ flags ∨ flags = 3 ∨ addr % 64 ≠ 0 then .error i
    else if flags = 2 then descWalk m n (i + 1) 0 addr
    else if len = 0 ∨ 2 ^ 31 < len ∨ (flags = 0 ∧ len % 64 ≠ 0) then .error i
    else if flags = 1 then .ok [(addr, len)]
    else match descWalk m n (i + 1) (k + 1) (a + 16) with
      | .ok l => .ok ((addr, len) :: l)
      | .error e => .error e

/-- The buffers that DESC of a command names; a missing or malformed list refuses the command (R390, R393). -/
def State.descList (s : State) (c : Nat) : Except Resp (List (Nat × Nat)) :=
  let d := fieldLE c 8 8
  if d = 0 then .error (Resp.denied 3 8)
  else if d % 64 ≠ 0 then .error (Resp.denied 5 0)
  else match descWalk s.hostMem (2 ^ 20) 0 0 d with
    | .ok l => .ok l
    | .error i => .error (Resp.denied 5 i)

/-- What refuses the command because of its descriptor list, if anything. -/
def State.descFault (s : State) (c : Nat) : Option Resp :=
  match s.descList c with
  | .ok _ => none
  | .error r => some r

/-- Bytes of a list's buffers in all. -/
def descSize (l : List (Nat × Nat)) : Nat := (l.map Prod.snd).sum

/-- The byte string of a command's input list. -/
def State.descBytes (s : State) (c : Nat) : List Byte :=
  match s.descList c with
  | .ok l => l.flatMap (fun p => s.hostMem.bytes p.1 p.2)
  | .error _ => []

/-- The list's buffers take an output string that fits them. -/
def writeDesc (m : Mem) : List (Nat × Nat) → List Byte → Mem
  | [], _ => m
  | (a, n) :: r, l => writeDesc (m.writeBytes a (l.take n)) r (l.drop n)

/-- Writes an output string to a command's list: none where it is too long, with log2 of the bytes needed (R394). -/
def State.descWrite (s : State) (c : Nat) (out : List Byte) : Except Nat State :=
  match s.descList c with
  | .error _ => .error 0
  | .ok l => if descSize l < out.length then .error (clog2 out.length) else .ok { s with hostMem := writeDesc s.hostMem l out }

end Sys2Proof.Machine
end

