-- ==== Sys2Proof/Machine/Drbg.lean ====
section
/-! DEFINITION. Drawing from the DRBG (R294, R295). -/

namespace Sys2Proof.Machine

/-- Is a reseed due and not yet made (R294)? -/
def State.reseedDue (s : State) : Bool :=
  s.entropy.seeded && (decide (65536 ≤ s.entropy.requests) || decide (s.entropy.reseedAt + 1000000000 ≤ s.now))

/-- What becomes of a request for DRBG output made now (R295). -/
inductive DrawNow where
  | served | waits | fails
  deriving DecidableEq, Repr

/-- `pr`: with prediction resistance. -/
def State.drawNow (s : State) (pr : Bool) : DrawNow :=
  if s.entropy.st = .failed then .fails
  else if !s.entropy.seeded then .waits
  else if pr then (if s.entropy.st = .ok ∧ s.entropy.pool ≠ [] then .served else .waits)
  else if s.reseedDue then .waits else .served

/-- The DRBG is instantiated with the first conditioned output, a nonce that the spec leaves open, and the serial number
(R294). [DESIGN CHOICE: log 87] -/
def State.drbgInstantiate (s : State) : State :=
  match s.entropy.pool with
  | [] => s
  | x :: rest =>
    let (s, nonce) := s.draw 128
    let d := Drbg.instantiate (natBytes 48 x.toNat) (natBytes 16 nonce.toNat) ((bytesLE 8 Config.serial.toNat).map BitVec.toNat)
    { s with entropy := { s.entropy with drbg := d, seeded := true, pool := rest, requests := 0, reseedAt := s.now } }

/-- The DRBG reseeds with one conditioned output (R294). -/
def State.drbgReseed (s : State) : State :=
  match s.entropy.pool with
  | [] => s
  | x :: rest =>
    let d := s.entropy.drbg.reseed (natBytes 48 x.toNat)
    { s with entropy := { s.entropy with drbg := d, pool := rest, requests := 0, reseedAt := s.now } }

/-- One generate request of `n` bytes, for a request that can be served (R294). -/
def State.drbgBytes (s : State) (n : Nat) (pr : Bool) : State × List Nat :=
  let s := if pr then s.drbgReseed else s
  let (d, out) := s.entropy.drbg.generate n
  ({ s with entropy := { s.entropy with drbg := d, requests := s.entropy.requests + 1 } }, out)

/-- The little-endian number of output bytes. -/
def leOf (l : List Nat) : Nat := ofBytesLE (l.map (BitVec.ofNat 8))

/-- A request joins those that wait (R295). -/
def State.drbgWait (s : State) (u : EntUse) (pr : Bool) : State :=
  { s with entropy := { s.entropy with waiting := s.entropy.waiting ++ [(u, pr)] } }

end Sys2Proof.Machine
end

