-- ==== Sys2Proof/Machine/Loop.lean ====
section
/-! DEFINITION. Loop ports: queue pairs, records, replies and congestion (15_loop_and_measurement.md, R408 to R418, R446). -/

namespace Sys2Proof.Machine

def State.loop (s : State) (l : Nat) : LoopPort := Tbl.get {} s.loops l
def State.setLoop (s : State) (l : Nat) (v : LoopPort) : State := { s with loops := s.loops.set l v }
def State.modLoop (s : State) (l : Nat) (f : LoopPort → LoopPort) : State := s.setLoop l (f (s.loop l))
def State.modQp (s : State) (l q : Nat) (f : QPair → QPair) : State :=
  s.modLoop l (fun p => match p.qps.find q with
    | some x => { p with qps := p.qps.set q (f x) }
    | none => p)
/-- The queue pair `q` of Loop port `l`, where it is connected. -/
def State.qp (s : State) (l q : Nat) : Option QPair := (s.loop l).qps.find q

def numLoops : Nat := 8

/-- A u32 count that stops at its largest value. [DEDUCED: log 80] -/
def sat32 (x : Word) : Word := BitVec.ofNat 32 (satAdd 32 x.toNat 1)

/-- LSTAT bits. -/
def lsDown : Nat := 0
def lsIcrc : Nat := 1
def lsCmReject : Nat := 2
def lsRnr : Nat := 3
def lsInput : Nat := 4

def LoopPort.flag (p : LoopPort) (i : Nat) : LoopPort := { p with stat := p.stat ||| BitVec.ofNat 5 (2 ^ i) }
def LoopPort.answer (p : LoopPort) (a : LoopAnswer) : LoopPort := { p with answers := p.answers ++ [a] }

/-- LOOP event body (R428). -/
def loopBody (port role service cause batch : Nat) : Nat :=
  body [(24, 1, port), (25, 1, role), (26, 2, service), (28, 2, cause), (32, 8, batch)]

/-- Posts a LOOP event about a stream to its tenant. -/
def State.loopEvent (s : State) (ten sub l stream cause batch : Nat) : State :=
  let e := s.streamEntry stream
  s.postTenant ten 0x70 sub 0xFFFF (loopBody l (lpRole e) (lpService e) cause batch)

/-! ### Queue pairs (R409) -/

/-- Queue pairs that a tenant has connected, as their indices. -/
def State.qpIndices (s : State) (ten : Nat) : List Nat :=
  s.loops.flatMap (fun p => (p.2.qps.filter (fun q => q.2.tenant == ten)).map (fun q => q.2.index))

/-- The lowest number below `n` that is not in use. -/
def lowestFree (n : Nat) (used : List Nat) : Option Nat := (List.range n).find? (fun i => !used.contains i)

/-- Payload lines of a record of NTOK tokens. -/
def payloadLines (e : BitVec 256) (ntok : Nat) : Nat := cdiv (ntok * 2 ^ lpTshift e) 64

/-- Lines left unspecified by the spec hold free values (R413, R414). [DESIGN CHOICE: log 77] -/
def State.looseLines (s : State) (lines : List Nat) : State :=
  lines.foldl (fun s l =>
    let (s, v) := s.draw 512
    s.writeLine l v 0) s

/-- A record stops landing: its slot keeps its descriptor, its landed lines are unspecified (R414). -/
def State.dropRecord (s : State) (stream : Nat) (r : LoopRec) : State :=
  let e := s.streamEntry stream
  match r.slot with
  | none => s
  | some i =>
    let s := s.modStream stream (fun x => { x with claimed := x.claimed.filter (fun j => j ≠ i) })
    s.looseLines ((List.range r.lines).map (fun j => slotLine e i + 1 + j))

/-- The QUERY stream that a REPLY stream serves: of equal SERVICE, on the same port (R410). [DEDUCED: log 81] -/
def State.queryOf (s : State) (ten k : Nat) : Option Nat :=
  let e := s.streamEntry k
  (s.loopKeys ((s.tenant ten).grans.map s.physGran)).find? (fun j =>
    let f := s.streamEntry j
    lpRole f == 1 && lpService f == lpService e && wstPep f == wstPep e && wstPix f == wstPix e)

/-- A reply is discarded, counted and posted (R416). -/
def State.discardReply (s : State) (ten l k : Nat) : State :=
  let s := s.modLoop l (fun p => { p with replyDiscard := sat16 p.replyDiscard 1 })
  let s := s.modStream k (fun st => { st with discarded := sat32 st.discarded })
  s.loopEvent ten 4 l k 0 0

/-- The REPLY stream of a tenant that serves a QUERY stream. -/
def State.replyOf (s : State) (ten j : Nat) : Option Nat :=
  (s.loopKeys ((s.tenant ten).grans.map s.physGran)).find? (fun k => lpRole (s.streamEntry k) == 2 && s.queryOf ten k == some j)

/-- A reply that waits on a queue pair which closes is discarded and its slot freed (R416). -/
def State.dropReply (s : State) (l ten : Nat) (m : LoopSend) : State :=
  match m.slot with
  | none => s
  | some (j, i) => (s.discardReply ten l ((s.replyOf ten j).getD j)).freeSlot (s.streamEntry j) i

/-- A queue pair closes: a record stops landing, replies that wait are discarded, and a reply to its queries will find it closed
(R409, R414, R416). -/
def State.closeQp (s : State) (l q : Nat) : State :=
  match s.qp l q with
  | none => s
  | some x =>
    let s := match x.rcv with
      | some r => s.dropRecord x.stream r
      | none => s
    let s := s.modStream x.stream (fun st => { st with full := st.full.map (fun e => if e.2 = (l, q) then (e.1, (l, 512)) else e) })
    (x.sends.foldl (fun s m => s.dropReply l x.tenant m) s).modLoop l (fun p => { p with qps := p.qps.del q })

/-- Every queue pair of a tenant closes (R409). -/
def State.closeTenantQps (s : State) (ten : Nat) : State :=
  (s.loops.flatMap (fun p => (p.2.qps.filter (fun q => q.2.tenant == ten)).map (fun q => (p.1, q.1)))).foldl
    (fun s k => s.closeQp k.1 k.2) s

/-- The SAMPLE or QUERY stream of a tenant that a Service ID names on a port (R409). -/
def State.inputStream (s : State) (ten l service : Nat) : Option Nat :=
  let t := s.tenant ten
  (s.loopKeys (t.grans.map s.physGran)).find? (fun k =>
    let e := s.streamEntry k
    decide (lpRole e ≤ 1) && loopPortOf (wstPep e) (wstPix e) == l && lpService e == service)

/-- CM_REQ: Service ID `sid` and the first two bytes of the private data; the queue pair is connected or refused (R409).
[DEDUCED: log 79] -/
def execCmReq (l sid priv : Nat) (s : State) : Out :=
  if numLoops ≤ l then .fault .noSuchUnit
  else
    let p := s.loop l
    if !p.up then .next s
    else
      let ten := bits sid 16 16
      let known := bits sid 32 32 == 0x4C57 && decide (ten < numTenants) && (s.tenant ten).st == .active
      let stream := if known then s.inputStream ten l (bits sid 0 16) else none
      let used := s.qpIndices ten
      let refuse (cause : Nat) : Out :=
        let s := s.setLoop l (((p.flag lsCmReject).answer .reject))
        let s := s.modLoop l (fun p => { p with cmReject := sat16 p.cmReject 1 })
        .next (if known then match stream with
          | some k => s.loopEvent ten 2 l k cause 0
          | none => s.postTenant ten 0x70 2 0xFFFF (loopBody l 0 (bits sid 0 16) cause 0)
        else s)
      match stream with
      | none => refuse stDenied
      | some k =>
        if lpAdmit (s.streamEntry k) ≠ priv % 2 ^ 16 then refuse stDenied
        else match lowestFree (s.tenant ten).loopQp used, lowestFree 512 (p.qps.map Prod.fst) with
          | some i, some q =>
            .next (s.setLoop l ({ p with qps := p.qps.set q { tenant := ten, stream := k, index := i } }.answer (.reply q)))
          | _, _ => refuse stNoResource

/-- CM_DREQ: the requester closes the queue pair (R409). -/
def execCmDreq (l q : Nat) (s : State) : Out :=
  if numLoops ≤ l then .fault .noSuchUnit else .next (s.closeQp l q)

/-- QP_TRANSPORT_ERROR: the queue pair closes, and its tenant is told (R409, R428). -/
def execQpTransportError (l q : Nat) (s : State) : Out :=
  if numLoops ≤ l then .fault .noSuchUnit
  else match s.qp l q with
    | none => .next s
    | some x => .next ((s.closeQp l q).loopEvent x.tenant 3 l x.stream 0 0)

/-- INVALID_REQUEST: an RDMA READ, WRITE or atomic request is answered with an Invalid Request NAK (R408). -/
def execInvalidRequest (l q : Nat) (s : State) : Out :=
  if numLoops ≤ l then .fault .noSuchUnit
  else match s.qp l q with
    | none => .next s
    | some _ => .next (s.modLoop l (fun p => p.answer (.invalidRequest q)))

/-- The sending rate of a queue pair now, in millionths of the full rate: restored linearly over 1 ms (R408). -/
def QPair.rateNow (x : QPair) (now : Nat) : Nat := min 1000000 (x.rate + (1000000 - x.rate) * (now - x.rateAt) / 1000000)

/-- CNP: the queue pair's sending rate is halved (R408). -/
def execCnp (l q : Nat) (s : State) : Out :=
  if numLoops ≤ l then .fault .noSuchUnit
  else .next (s.modQp l q (fun x => { x with rate := x.rateNow s.now / 2, rateAt := s.now }))

/-- PFC_PAUSE: a pause frame stops every tenant's sending on the port; one with no pause time lets it go on (R408, R418). -/
def execPfcPause (l quanta : Nat) (s : State) : Out :=
  if numLoops ≤ l then .fault .noSuchUnit
  else .next (s.modLoop l (fun p => if p.pfc then { p with paused := decide (quanta ≠ 0) } else p))

/-! ### Records (R411 to R414) -/

def hdrNtok (h : Nat) : Nat := fieldLE h 4 4
def hdrBatch (h : Nat) : Nat := fieldLE h 8 8
def hdrPos (h : Nat) : Nat := fieldLE h 16 4

/-- The cause of a rejection from the header of a message of at least `len` bytes (R412 steps 1 and 2). -/
def headerCause (e : BitVec 256) (h len : Nat) : Option Nat :=
  if len < 64 ∨ fieldLE h 0 4 ≠ 0x4E49574C ∨ bits (hdrPos h) 24 8 ≠ 0 then some stDenied
  else if lpTmax e < hdrNtok h ∨ 2 ^ 24 < bits (hdrPos h) 0 24 + hdrNtok h then some stTooLong
  else none

/-- INPUT_REJECT: the rejection is counted, answered with a 64-byte SEND and posted (R412). [DEDUCED: log 82] -/
def State.inputReject (s : State) (l q : Nat) (x : QPair) (h cause : Nat) : State :=
  let msg := bytesLE 64 (packLE [(0, 2, cause), (4, 8, hdrBatch h), (12, 4, hdrNtok h)])
  let s := s.modQp l q (fun y => { y with sends := y.sends ++ [{ bytes := msg }] })
  let s := s.modLoop l (fun p => { p.flag lsInput with inputReject := sat16 p.inputReject 1 })
  let s := s.modStream x.stream (fun st =>
    if cause = stTooLong then { st with tooLong := sat32 st.tooLong } else { st with denied := sat32 st.denied })
  s.loopEvent x.tenant 1 l x.stream cause (hdrBatch h)

/-- A packet that arrives: its invariant CRC is checked, and an ECN mark is answered with a CNP (R408). -/
def State.loopPacket (s : State) (l q : Nat) (icrc ecn : Bool) : Option State :=
  if !icrc then none else some (if ecn then s.modLoop l (fun p => p.answer (.cnp q)) else s)

/-- The packet fails its invariant CRC and is dropped (R408, LERRCNT). -/
def State.icrcDrop (s : State) (l : Nat) : State := s.modLoop l (fun p => { p.flag lsIcrc with icrc := sat16 p.icrc 1 })

/-- The slot that a record goes to: none where it goes to no slot, `some none` where it must wait (R413). [DEDUCED: log 78] -/
def State.recordSlot (s : State) (k : Nat) (h : Nat) (cause : Option Nat) : Option (Option Nat) :=
  let e := s.streamEntry k
  let st := s.loopStream k
  let free (i : Nat) : Bool := s.slotState e i == 0 && !st.claimed.contains i
  if lpRole e = 0 then
    if cause = some stDenied then none
    else
      let i := hdrBatch h % ringSlots e
      some (if free i && decide (0 < ringSlots e) then some i else none)
  else if cause.isSome then none
  else some ((List.range (ringSlots e)).find? free)

/-- Payload bytes go into the ring as whole-line WR barges of the tenant; what is beyond the record's lines is dropped
(R413). -/
def State.landPayload (s : State) (l q : Nat) (x : QPair) (r : LoopRec) (more : List Byte) (last : Bool) : State × LoopRec :=
  match r.slot, r.discard with
  | some i, false =>
    let e := s.streamEntry x.stream
    let all := r.rest ++ more
    let total := payloadLines e (hdrNtok r.hdr)
    let whole := if last then cdiv all.length 64 else all.length / 64
    let n := min whole (total - r.lines)
    let (s, pad) := s.draw 512
    let padded := all ++ bytesLE 64 pad.toNat
    let op0 := (s.loop l).nextOp
    let barges := (List.range n).map (fun j =>
      let line := slotLine e i + 1 + r.lines + j
      ({ ty := 2, tenant := x.tenant, src := loopEndpoint l, dst := 576 + stackOf line, line := line, stream := 512 * l + q
         payload := BitVec.ofNat 512 (ofBytesLE ((padded.drop (64 * j)).take 64)), op := op0 + j } : Barge))
    let ep := loopEndpoint l
    let s := { s with egress := s.egress.set ep (Tbl.get [] s.egress ep ++ barges) }
    let s := s.modLoop l (fun p => { p with nextOp := op0 + n })
    (s, { r with rest := all.drop (64 * whole), lines := r.lines + n
                 unacked := r.unacked ++ (List.range n).map (fun j => op0 + j) })
  | _, _ => (s, r)

/-- RECORD_FIRST_PACKET: `len` bytes of `data`; the record is judged from its header: accepted, rejected, or answered with
an RNR NAK where its slot is not FREE (R412, R413). [DEDUCED: log 72] -/
def execRecordFirstPacket (l q : Nat) (icrc ecn : Bool) (len data : Nat) (s : State) : Out :=
  if numLoops ≤ l then .fault .noSuchUnit
  else match s.qp l q with
    | none => .next s
    | some x =>
      if x.rcv.isSome then .next s
      else match s.loopPacket l q icrc ecn with
        | none => .next (s.icrcDrop l)
        | some s =>
          let (s, loose) := s.draw 512
          let h := if len < 64 then data % 2 ^ (8 * len) + (loose.toNat <<< (8 * len)) % 2 ^ 512 else data % 2 ^ 512
          let cause := headerCause (s.streamEntry x.stream) h len
          match s.recordSlot x.stream h cause with
          | some none =>
            let s := s.modLoop l (fun p => (p.flag lsRnr).answer (.rnr q))
            .next (s.modStream x.stream (fun st => { st with rnrs := sat32 st.rnrs }))
          | slot =>
            let i := slot.bind id
            let s := match i with
              | some i => s.modStream x.stream (fun st => { st with claimed := st.claimed ++ [i] })
              | none => s
            let r : LoopRec := { hdr := h, got := len, slot := i, cause := cause.getD 0, discard := cause.isSome }
            let s := match cause with
              | some c => s.inputReject l q x h c
              | none => s
            let (s, r) := s.landPayload l q x r ((bytesLE len data).drop 64) false
            .next (s.modQp l q (fun y => { y with rcv := some r }))

/-- SEND_MIDDLE: a middle packet of a record lands, or is discarded with a rejected record (R412, R413). -/
def execSendMiddle (l q : Nat) (icrc ecn : Bool) (len data : Nat) (s : State) : Out :=
  if numLoops ≤ l then .fault .noSuchUnit
  else match s.qp l q with
    | none => .next s
    | some x =>
      match x.rcv with
      | none => .next s
      | some r =>
        if r.ended then .next s
        else match s.loopPacket l q icrc ecn with
          | none => .next (s.icrcDrop l)
          | some s =>
            let (s, r) := s.landPayload l q x { r with got := r.got + len } (bytesLE len data) false
            .next (s.modQp l q (fun y => { y with rcv := some r }))

/-- RECORD_LAST_PACKET: the rest of the record lands and the message's length is checked (R412 step 3); a record that goes
to no slot is finished. -/
def execRecordLastPacket (l q : Nat) (icrc ecn : Bool) (len data : Nat) (s : State) : Out :=
  if numLoops ≤ l then .fault .noSuchUnit
  else match s.qp l q with
    | none => .next s
    | some x =>
      match x.rcv with
      | none => .next s
      | some r =>
        if r.ended then .next s
        else match s.loopPacket l q icrc ecn with
          | none => .next (s.icrcDrop l)
          | some s =>
            let e := s.streamEntry x.stream
            let (s, r) := s.landPayload l q x { r with got := r.got + len } (bytesLE len data) true
            let bad := r.cause = 0 ∧ r.got ≠ 64 + hdrNtok r.hdr * 2 ^ lpTshift e
            let r := if bad then { r with cause := stDenied } else r
            let s := if bad then s.inputReject l q x r.hdr stDenied else s
            let s := if r.cause = 0 then s.modStream x.stream (fun st => { st with accepted := sat32 st.accepted }) else s
            .next (s.modQp l q (fun y => { y with rcv := if r.slot.isSome then some { r with ended := true } else none }))

/-- The descriptor line of a record (R411). -/
def descriptor (x : QPair) (r : LoopRec) (now : Nat) : Nat :=
  let ok := r.cause == 0
  packLE [(0, 8, hdrBatch r.hdr), (8, 4, if ok then hdrNtok r.hdr else 0), (12, 1, if ok then 1 else 2), (14, 2, r.cause),
    (16, 4, hdrNtok r.hdr), (20, 2, x.index), (24, 8, now), (32, 4, bits (hdrPos r.hdr) 0 24), (36, 28, fieldLE r.hdr 20 28)]

/-- DESCRIPTOR_WRITE: once every payload line of an ended record is acknowledged its descriptor is written; a rejected
QUERY record goes to no slot, and the payload lines of a rejected record are unspecified (R413). -/
def execDescriptorWrite (l q : Nat) (s : State) : Out :=
  if numLoops ≤ l then .fault .noSuchUnit
  else match s.qp l q with
    | none => .next s
    | some x =>
      match x.rcv with
      | none => .next s
      | some r =>
        match r.slot with
        | none => .next s
        | some i =>
          if !r.ended || !r.unacked.isEmpty then .next s
          else
            let e := s.streamEntry x.stream
            let s := s.modQp l q (fun y => { y with rcv := none })
            let s := s.modStream x.stream (fun st => { st with claimed := st.claimed.filter (fun j => j ≠ i) })
            let s := if r.cause = 0 then s else s.looseLines ((List.range r.lines).map (fun j => slotLine e i + 1 + j))
            if lpRole e = 1 ∧ r.cause ≠ 0 then .next s
            else
              let s := s.writeLine (slotLine e i) (BitVec.ofNat 512 (descriptor x r s.now)) 0
              .next (if lpRole e = 1 then s.modStream x.stream (fun st => { st with
                queue := st.queue ++ [i], full := st.full.set i (l, q) }) else s)

/-- WR_ACK of a payload line: at a Loop I/O die it is ticked off at its record (R413); a wharf counts it for the next FENCE. -/
def loopAck (src ep : Nat) (s : State) : Out :=
  match s.arriving src ep with
  | none => .next s
  | some (b, rest) =>
    if b.ty ≠ 6 then .next s
    else
      let s := { s with transit := rest }
      .next (s.modQp (b.stream / 512) (b.stream % 512) (fun x => { x with
        rcv := x.rcv.map (fun r => { r with unacked := r.unacked.filter (fun o => o ≠ b.op) }) }))

/-- WR_ACK: an acknowledgement reaches the writer, a wharf or a Loop I/O die (R215, R217, R237, R413). -/
def execWrAck (src g : Nat) (s : State) : Out :=
  if isLoopEp g then loopAck src g s else wharfAck src g s

/-! ### Replies (R416) -/

/-- A whole reply goes out on the queue pair that delivered its query, or is discarded (R416). -/
def State.sendReply (s : State) (ten k slot : Nat) (bytes : List Byte) : State :=
  let e := s.streamEntry k
  let l := loopPortOf (wstPep e) (wstPix e)
  match s.queryOf ten k with
  | none => s.discardReply ten l k
  | some j =>
    let st := s.loopStream j
    match st.full.find slot with
    | none => s.discardReply ten l k
    | some (l', q) =>
      if s.slotState (s.streamEntry j) slot ≠ 1 then s.discardReply ten l k
      else
        let s := s.setStream j { st with full := st.full.del slot }
        match s.qp l' q with
        | some x =>
          if x.stream = j then s.modQp l' q (fun y => { y with sends := y.sends ++ [{ bytes := bytes, slot := some (j, slot) }] })
          else (s.discardReply ten l k).freeSlot (s.streamEntry j) slot
        | none => (s.discardReply ten l k).freeSlot (s.streamEntry j) slot

/-- REPLY_FLIT: the next flit of a REPLY stream reaches its I/O die: a header, or payload of the reply being formed (R416). -/
def execReplyFlit (src ep : Nat) (s : State) : Out :=
  if !isLoopEp ep then .fault .noSuchUnit
  else match s.arriving src ep with
    | none => .next s
    | some (b, rest) =>
      if b.ty ≠ 4 then .next s
      else
        let s := { s with transit := rest }
        let k := 64 * src + b.stream
        if s.discards b.tenant then .next s
        else
          let (slot, len, got) : Nat × Nat × List Byte := match (s.loopStream k).reply with
            | none => (fieldLE b.payload.toNat 0 2, fieldLE b.payload.toNat 4 4, [])
            | some (slot, len, got) => (slot, len, got ++ (bytesLE 64 b.payload.toNat).take (len - got.length))
          if len ≤ got.length then
            .next ((s.modStream k (fun st => { st with reply := none })).sendReply b.tenant k slot got)
          else .next (s.modStream k (fun st => { st with reply := some (slot, len, got) }))

/-- REPLY_ACK: the requester has acknowledged the whole SEND at the head of a queue pair; a reply's slot becomes FREE (R416). -/
def execReplyAck (l q : Nat) (s : State) : Out :=
  if numLoops ≤ l then .fault .noSuchUnit
  else match s.qp l q with
    | none => .next s
    | some x =>
      match x.sends with
      | [] => .next s
      | m :: rest =>
        let s := s.modQp l q (fun y => { y with sends := rest })
        match m.slot with
        | none => .next s
        | some (j, i) =>
          let s := match s.replyOf x.tenant j with
            | some k => s.modStream k (fun st => { st with replies := sat32 st.replies })
            | none => s
          .next (s.freeSlot (s.streamEntry j) i)

/-- RNR_NAK: the requester has no receive posted; after seven retries the SEND is dropped (R412). [DEDUCED: log 73] -/
def execRnrNak (l q : Nat) (s : State) : Out :=
  if numLoops ≤ l then .fault .noSuchUnit
  else .next (s.modQp l q (fun x => match x.sends with
    | [] => x
    | m :: rest => if 7 ≤ m.retries then { x with sends := rest } else { x with sends := { m with retries := m.retries + 1 } :: rest }))

/-! ### Links of a Loop port (R428, R446) -/

/-- Tenants with a Loop stream on a port. -/
def State.loopTenants (s : State) (l : Nat) : List Nat :=
  (s.tenants.filter (fun p => (s.loopKeys (p.2.grans.map s.physGran)).any (fun k =>
    let e := s.streamEntry k
    loopPortOf (wstPep e) (wstPix e) == l))).map Prod.fst

/-- Posts a LOOP event of a link to the tenants of the port and to the PF. -/
def State.linkEvent (s : State) (l sub : Nat) : State :=
  let s := (s.loopTenants l).foldl (fun s n => s.postTenant n 0x70 sub 0xFFFF (loopBody l 0 0 0 0)) s
  s.postPF 0x70 sub (loopBody l 0 0 0 0)

/-- LOOP_PORT_FAIL: the port's queue pairs close and its rings keep their contents (R446). -/
def execLoopPortFail (l : Nat) (s : State) : Out :=
  if numLoops ≤ l then .fault .noSuchUnit
  else if (s.loop l).failed then .next s
  else
    let s := ((s.loop l).qps.map Prod.fst).foldl (fun s q => s.closeQp l q) s
    let n := (s.loopTenants l).length
    let s := s.modLoop l (fun p => { p.flag lsDown with up := false, failed := true, paused := false })
    .next ((s.postPF 0x40 7 (body [(24, 1, 6), (26, 2, 48 + l), (36, 2, n), (38, 1, s.detoured.length)])).linkEvent l 5)

/-- LOOP_LINK_UP: the port's Ethernet link comes up (R428). -/
def execLoopLinkUp (l : Nat) (s : State) : Out :=
  if numLoops ≤ l then .fault .noSuchUnit
  else if (s.loop l).failed || (s.loop l).up || !s.loopOnNow l then .next s
  else .next ((s.modLoop l (fun p => { p with up := true })).capChangeAll.linkEvent l 6)

end Sys2Proof.Machine
end

