-- ==== Sys2Proof/Machine/Power.lean ====
section
/-! DEFINITION. Power domains, the governor, temperature and coolant (17_power_clocks.md, R451 to R475, R423). -/

namespace Sys2Proof.Machine

/-! ### Compute groups (R452) -/

/-- COMPUTE_GROUP_OFF_TIMER: no condition has held for 10 ms, and the group is switched off (R452). -/
def execComputeGroupOffTimer (g : Nat) (s : State) : Out :=
  if numGroups ≤ g then .fault .noSuchUnit
  else
    let s := s.groupsOn
    match s.power.idleSince.find g with
    | none => .next s
    | some t =>
      if s.groupOnNow g && !s.groupWanted g && decide (t + 10000000 ≤ s.now) then .next ((s.groupOff g).powerEvent 3 g)
      else .next s

/-! ### Calibrated readings (R463, R501) -/

/-- The value in use of a calibration item (R501). -/
def State.calValue (s : State) (item : Nat) : Int := Config.factoryCal item + Tbl.get 0 s.boot.calUsed item

/-! ### Coolant (R467 to R469) -/

/-- Do the readings meet R466's flow and inlet limits? -/
def Coolant.adequate (c : Coolant) : Bool :=
  decide (6500 ≤ c.flowA) && decide (6500 ≤ c.flowB) && decide (18 * 16 ≤ c.inlet) && decide (c.inlet ≤ 40 * 16)

/-- A reading of inlet, outlet, both flows and the pressure drop, calibrated by items 0x0500 to 0x0504. -/
def State.coolantReading (s : State) (inlet outlet flowA flowB : Int) (drop : Nat) : Coolant :=
  { time := s.now, inlet := inlet + s.calValue 0x0500, outlet := outlet + s.calValue 0x0501, flowA := flowA + s.calValue 0x0502
    flowB := flowB + s.calValue 0x0503, drop := ((drop : Int) + s.calValue 0x0504).toNat }

/-- The wait for flow is over: the failed-start count of the running bank again counts this start (R480, R486).
[DEDUCED: log 93] -/
def State.countStart (s : State) : State :=
  match s.boot.running with
  | some r =>
    if r.bank = 0 then { s with nv := { s.nv with bankA := { s.nv.bankA with fails := s.boot.failsBefore + 1 } } }
    else { s with nv := { s.nv with bankB := { s.nv.bankB with fails := s.boot.failsBefore + 1 } } }
  | none => s

/-- FLOW_VERIFIED: the readings have been adequate for 5 s (R467); compute groups that are wanted come on. -/
def execFlowVerified (inlet outlet flowA flowB : Int) (drop : Nat) (s : State) : Out :=
  let c := s.coolantReading inlet outlet flowA flowB drop
  if (s.boot.phase == .starting || s.boot.phase == .ready) && !s.power.flowOk && !s.power.shutOff && c.adequate then
    let s := s.modPower (fun p => { p with flowOk := true, flowLostAt := none, coolant := c })
    let s := if s.boot.phase == .starting then s.countStart else s
    .next ((s.coolantEvent 1 c).groupsOn)
  else .next s

/-- COOLANT_NOT_VERIFIED: every 10 s while a start waits for flow (R467). -/
def execCoolantNotVerified (s : State) : Out :=
  if s.boot.phase == .starting && !s.power.flowOk && decide (s.boot.notVerifiedAt + 10000000000 ≤ s.now) then
    .next (({ s with boot := { s.boot with notVerifiedAt := s.now } }).coolantEvent 5 s.power.coolant)
  else .next s

/-- FLOW_LOST: the lower flow is below 40 L/min or the inlet above 40 °C: every compute group goes off (R469). -/
def execFlowLost (inlet outlet flowA flowB : Int) (drop : Nat) (s : State) : Out :=
  let c := s.coolantReading inlet outlet flowA flowB drop
  if s.power.flowOk && (decide (c.flow < 4000) || decide (40 * 16 < c.inlet)) then
    let s := (s.modPower (fun p => { p with flowOk := false, flowLostAt := some s.now, coolant := c })).pwFlag pwFlowLost
    .next ((List.range numGroups).foldl (fun s g => s.groupLost g) s)
  else .next s

/-- The Hold, the canal network and the ports lose their contents with PD01 and PD14 to PD19 (R469). -/
def State.mainOff (s : State) : State :=
  let s := s.modPower (fun p => { p with pdOn := 1, shutOff := true })
  { s with hold := [], holdMeta := [], stackTbl := [], quadrants := [], wharves := [], egress := [], transit := [], ports := []
           loops := [], streams := [], detours := [], canalErr := [], fabric := { s.fabric with tags := [], markers := [], links := [] } }

/-- FLOW_LOST_TIMEOUT: flow has not been verified within 5 s of its loss (R469). [DEDUCED: log 90] -/
def execFlowLostTimeout (s : State) : Out :=
  match s.power.flowLostAt with
  | none => .next s
  | some t =>
    if s.power.flowOk || s.power.shutOff || s.now < t + 5000000000 then .next s
    else
      let live := (s.ctxs.filter (fun p => decide (p.1 < numCtxs) && p.2.state.live)).map Prod.fst
      let s := live.foldl (fun s c => s.enterAborted c) s
      .next (s.mainOff.coolantEvent 3 s.power.coolant)

/-- C_eff of R468 for cap, inlet in 1/16 °C and flow in 0.01 L/min. -/
def effectiveCap (cap : Nat) (inlet flow : Int) : Nat :=
  let c := if 32 * 16 < inlet then min cap (23000 - (625 * (inlet - 512).toNat + 15) / 16) else cap
  if flow < 7200 then min c (23000 * flow.toNat / 7200) else c

/-- The cap, C_eff and P_comp follow from C and the readings (R458, R468). -/
def State.setCaps (s : State) (cap : Nat) (c : Coolant) : State :=
  let e := effectiveCap cap c.inlet c.flow
  s.modPower (fun p => { p with cap := cap, effCap := e, pcomp := e - 2800, derated := decide (e < cap) })

/-- COOLANT_DERATE: each second C_eff is recomputed (R468); a flow below 65 L/min and an inlet above 32 °C are flagged. -/
def execCoolantDerate (inlet outlet flowA flowB : Int) (drop : Nat) (s : State) : Out :=
  if !s.power.pdOn.getLsbD 0 || s.boot.phase == .off then .next s
  else
    let c := s.coolantReading inlet outlet flowA flowB drop
    let old := s.power
    let s := (s.modPower (fun p => { p with coolant := c })).setCaps old.cap c
    let s := if c.flow < 6500 then
        let s := s.pwFlag pwFlowLow
        if old.coolant.flow < 6500 then s else s.coolantEvent 2 c
      else s
    let s := if 32 * 16 < c.inlet then
        let s := s.pwFlag pwInletHot
        if 32 * 16 < old.coolant.inlet then s else s.coolantEvent 4 c
      else s
    .next (if s.power.effCap = old.effCap then s else s.powerEvent 4 0xFF)

/-! ### The governor (R455, R458 to R462) -/

/-- Granule power at full activity at a step, in 1/240 W (R459). -/
def gPower (k : Nat) : Nat :=
  if k ≤ 16 then 2640 + 135 * k
  else if k ≤ 24 then 4800 + 180 * (k - 16)
  else if k ≤ 34 then 6240 + 216 * (k - 24)
  else 8400 + 280 * (k - 34)

/-- A fraction of naturals. [DEDUCED: log 91] -/
abbrev Frac := Nat × Nat
def Frac.add (a b : Frac) : Frac := (a.1 * b.2 + b.1 * a.2, a.2 * b.2)
def Frac.le (a b : Frac) : Bool := decide (a.1 * b.2 ≤ b.1 * a.2)

/-- The estimated draw of a die at step `k` (R459). -/
def State.estDraw (s : State) (d k : Nat) : Frac := ((s.die d).draw * gPower k, gPower (s.die d).step)

/-- Allocated granules of a die. [DEDUCED: log 89] -/
def State.dieAlloc (s : State) (d : Nat) : List Nat := (dieGrans d).filter (fun g => (s.tenantOfGran g).isSome)

/-- Does a Timed member fix the die (CLK_DIEn.TIMED, R455)? -/
def State.dieTimed (s : State) (d : Nat) : Bool :=
  (s.dieAlloc d).any (fun g => (s.ctxsIn g).any (fun c => !(s.ctx c).elastic && (s.ctx c).state != .stopped))
/-- Do granules of more than one tenant lie on the die (CLK_DIEn.SHARED)? -/
def State.dieShared (s : State) (d : Nat) : Bool := decide (2 ≤ (s.owners (dieGrans d)).length)
/-- Does R455 fix the die at STEP 34? -/
def State.dieFixed (s : State) (d : Nat) : Bool :=
  s.dieTimed d || (s.dieShared d && (s.dieAlloc d).any (fun g => (granTiles g).any (fun t => (s.tile t).core.act != .off)))

/-- Is the die free for domain `c`: all its allocated granules belong to it, it is Elastic, and R455 does not fix it (R460)? -/
def State.dieFree (s : State) (d c : Nat) : Bool :=
  let gs := s.dieAlloc d
  !gs.isEmpty && gs.all (fun g => s.ctxsIn g == [c]) && (s.ctx c).elastic && !s.dieFixed d

/-- Elastic domains of a tenant that hold tiles. -/
def State.elasticOf (s : State) (n : Nat) : List Nat :=
  ((List.range 4).map (fun i => 4 * n + i)).filter (fun c => (s.ctx c).loaded && (s.ctx c).elastic)

/-- The part of a domain in its tenant's budget (R460). -/
def State.domainPart (s : State) (c : Nat) : Nat :=
  let cx := s.ctx c
  if cx.powerShare ≠ 0 then cx.powerShare
  else
    let g := (s.tenant (c / 4)).grans.length
    (s.tenant (c / 4)).power * (s.gransOf c).length / max g 1

/-- A tenant's budget before lending (R458). -/
def State.tenantBudget (s : State) (n : Nat) : Nat :=
  let sum := (s.tenants.map (fun p => p.2.power)).sum
  if s.power.pcomp < sum then (s.tenant n).power * s.power.pcomp / sum else (s.tenant n).power

/-- Draw of a list of dies attributed to a tenant, by the granules it holds on each (R459). -/
def State.attributed (s : State) (n : Nat) (ds : List Nat) : Frac :=
  ds.foldl (fun f d =>
    let all := (s.dieAlloc d).length
    let mine := ((s.dieAlloc d).filter (fun g => s.tenantOfGran g == some n)).length
    if all = 0 then f else Frac.add f ((s.die d).draw * mine, all)) (0, 1)

/-- Sum of the estimates of dies at their chosen steps. -/
def State.estSum (s : State) (steps : Tbl Nat) (ds : List Nat) : Frac :=
  ds.foldl (fun f d => Frac.add f (s.estDraw d (Tbl.get 0 steps d))) (0, 1)

/-- One pass of R460's loop over the free dies. -/
def State.raisePass (s : State) (budget : Frac) (ds : List Nat) (steps : Tbl Nat) : Tbl Nat × Bool :=
  ds.foldl (fun (a : Tbl Nat × Bool) d =>
    let k := Tbl.get 0 a.1 d
    let up := Tbl.set a.1 d (k + 1)
    if k < s.power.ceiling && (s.estSum up ds).le budget then (up, true) else a) (steps, false)

/-- R460's loop. -/
def State.raiseSteps (s : State) (budget : Frac) (ds : List Nat) : Nat → Tbl Nat → Tbl Nat
  | 0, steps => steps
  | n + 1, steps =>
    let (st, raised) := s.raisePass budget ds steps
    if raised then s.raiseSteps budget ds n st else st

/-- The steps of a domain's free dies (R460). -/
def State.governDomain (s : State) (n c : Nat) : Tbl Nat :=
  let all := List.range 48
  let xs := s.elasticOf n
  let ds := all.filter (fun d => s.dieFree d c)
  let fixed := all.filter (fun d => !xs.any (fun x => s.dieFree d x))
  let b := s.tenantBudget n + Tbl.get 0 s.power.lentIn n
  let f := s.attributed n fixed
  let parts := (xs.map s.domainPart).sum
  let left := b * f.2 - f.1
  s.raiseSteps (left * s.domainPart c, f.2 * max parts 1) ds 41 (ds.map (fun d => (d, 0)))

/-- Budget lent across tenants (R376, R461): `slack` gives, by tenant, what its gated tiles leave unused. -/
def State.lending (s : State) (slack : List (Nat × Nat)) : Tbl Nat :=
  if !s.crossLend then []
  else
    let gives := s.tenants.filter (fun p => p.2.st == .active && p.2.lendOut)
    let takes := s.tenants.filter (fun p => p.2.st == .active && p.2.lendIn)
    let pool := (gives.map (fun p =>
      let used := s.attributed p.1 (List.range 48)
      min ((s.tenantBudget p.1 * used.2 - used.1) / used.2) (Tbl.get 0 slack p.1))).sum
    let w := (takes.map (fun p => p.2.power)).sum
    takes.map (fun p => (p.1, pool * p.2.power / max w 1))

/-- GOVERNOR_INTERVAL: with the measured draw of each die, the module's total and the lenders' gated slack, every die's
step is recomputed; CAP_EXCEEDED where the total was above C_eff with every free die at STEP 0 already (R455, R458 to R462). -/
def execGovernorInterval (draws : List Nat) (total : Nat) (slack : List (Nat × Nat)) (s : State) : Out :=
  if s.lk.state = .failed ∨ s.boot.phase ≠ .ready ∨ s.lk.pair1.since.isSome then .next s
  else
    let ds := List.range 48
    let s := ds.foldl (fun s d => s.setDie d { s.die d with draw := draws.getD d 0 }) s
    let fixed := ds.filter s.dieFixed
    let s := s.modPower (fun p => { p with
      total := BitVec.ofNat 16 total, compute := BitVec.ofNat 16 draws.sum
      fixedDies := BitVec.ofNat 16 ((fixed.map (fun d => (s.die d).draw)).sum), overCap := decide (p.effCap < total) })
    let lent := s.lending slack
    let s := s.modPower (fun p => { p with lentIn := lent })
    let plans := s.tenants.flatMap (fun p => (s.elasticOf p.1).flatMap (fun c => s.governDomain p.1 c))
    let floored := (ds.filter (fun d => plans.any (fun q => q.1 == d))).all (fun d => (s.die d).step == 0)
    let s := fixed.foldl (fun s d => s.setTarget d 34) s
    let s := plans.foldl (fun s q => s.setTarget q.1 q.2) s
    if s.power.overCap && floored then .next ((s.pwFlag pwCapExceeded).powerEvent 1 0xFF)
    else .next s

/-! ### Temperature (R463 to R465) -/

/-- Tenants that may read a compute group's telemetry (R375): the one that owns all its allocated granules. -/
def State.groupReaders (s : State) (g : Nat) : List Nat :=
  match s.owners (groupGrans g) with
  | [n] => [n]
  | _ => []

/-- THERMAL event (R475): to the PF, and for subtypes 1 to 3 to the group's readers. -/
def State.thermalEvent (s : State) (sub unit : Nat) (reading : Int) (step : Nat) (group : Option Nat) : State :=
  let b := body [(24, 1, unit), (26, 2, s16 reading), (28, 1, step)]
  let s := s.postPF 0x51 sub b
  match group with
  | some g => (s.groupReaders g).foldl (fun s n => s.postTenant n 0x51 sub 0xFFFF b) s
  | none => s

/-- The hottest of a list of readings. -/
def hottest (l : List Int) : Int := l.foldl max (l.headD 0)

/-- THERMAL_SAMPLE: the 12 granule sensors of die `d`: the die throttles from 100 °C, recovers once below 97 °C for 1 ms,
and its group trips at 110 °C (R463, R464). -/
def execThermalSample (d : Nat) (readings : List Int) (s : State) : Out :=
  if 48 ≤ d ∨ readings.length ≠ 12 then .fault .noSuchUnit
  else if (s.die d).state = .off then .next s
  else
    let cal := ((dieGrans d).zip readings).map (fun p => p.2 + s.calValue p.1)
    let hot := hottest cal
    let g := groupOfDie d
    let x := { s.die d with temp := hot }
    let s := s.setDie d x
    if 110 * 16 ≤ hot then
      let s := s.groupLost g
      let s := s.modPower (fun p => { p with tripped := p.tripped.set g s.now })
      .next ((s.pwFlag pwTrip).thermalEvent 3 g hot x.step (some g))
    else if 100 * 16 ≤ hot then
      let s := s.setDie d { x with throttled := true, belowSince := none, throttledAt := s.now }
      let s := s.setDie d { s.die d with step := x.step - 1 }
      let s := s.setTarget d x.target
      let s := s.pwFlag pwThrottle
      .next (if x.throttled then s else s.thermalEvent 1 d hot (x.step - 1) (some g))
    else if !x.throttled then .next s
    else if 97 * 16 ≤ hot then .next (s.setDie d { x with belowSince := none })
    else
      let since := x.belowSince.getD s.now
      if s.now < since + 1000000 then .next (s.setDie d { x with belowSince := some since })
      else if x.step + 1 ≥ x.target then
        let s := s.setDie d { x with step := x.target, throttled := false, belowSince := none }
        .next (s.thermalEvent 2 d hot x.target (some g))
      else .next (s.setDie d { x with step := x.step + 1, belowSince := some s.now })

/-- TRIP_HOLD_END: 10 s after its trip a group may come on again (R464). -/
def execTripHoldEnd (g : Nat) (s : State) : Out :=
  if numGroups ≤ g then .fault .noSuchUnit
  else match s.power.tripped.find g with
    | none => .next s
    | some t =>
      if s.now < t + 10000000000 then .next s
      else .next (s.modPower (fun p => { p with tripped := p.tripped.del g })).groupsOn

/-- STACK_HOT: a Hold stack's sensor is read: at 100 °C its owners' slots are halved, at 105 °C it only refreshes (R465). -/
def execStackHot (k : Nat) (reading : Int) (s : State) : Out :=
  if 32 ≤ k then .fault .noSuchUnit
  else
    let hot := reading + s.calValue (0x0240 + k)
    let x : Stack := { s.stack k with temp := hot }
    let s := s.setStack k x
    if 100 * 16 ≤ hot then
      let s := s.setStack k { x with halved := true, coolSince := none, refreshOnly := x.refreshOnly || decide (105 * 16 ≤ hot) }
      let s := s.pwFlag pwStackHot
      .next (if x.halved then s else s.thermalEvent 4 k hot 0 none)
    else
      let x := { x with refreshOnly := false }
      if !x.halved then .next (s.setStack k x)
      else if 95 * 16 ≤ hot then .next (s.setStack k { x with coolSince := none })
      else
        let since := x.coolSince.getD s.now
        if s.now < since + 10000000 then .next (s.setStack k { x with coolSince := some since })
        else .next ((s.setStack k { x with halved := false, coolSince := none }).thermalEvent 5 k hot 0 none)

/-! ### Gating, stopped dies and wakes (R456, R457, R472) -/

/-- Is the engine waiting at its queue head, in RECV, or without an order? -/
def State.engineWaits (s : State) (t e : Nat) : Bool :=
  let tl := s.tile t
  let en := tl.engine e
  if e = 2 && tl.recvWait then true
  else en.exec.isNone && en.pending.isNone && (match en.queue with
    | [] => true
    | o :: _ => ordWE o && decide (tl.avail e (ordWObj o) < ordWN o))

/-- Is the scalar core in a wait: SWAIT, AWAIT or LOCK? -/
def Core.waits (c : Core) : Bool :=
  match c.act with
  | .swait _ _ => true
  | .await _ _ => true
  | .lockStall => true
  | _ => false

/-- The lend threshold of a tile's domain (R456, R497). -/
def State.lendNs (s : State) (t : Nat) : Nat :=
  match (s.tile t).home with
  | some c => if (s.ctx c).lendThreshold = 0 then (s.ctx c).lendDefault else (s.ctx c).lendThreshold
  | none => 4000

/-- ENGINE_CLOCK_GATE: engine `e` of a tile, or its scalar core (3), has waited longer than the lend threshold: its datapath
is gated (R456). -/
def execEngineClockGate (t e : Nat) (s : State) : Out :=
  if numTiles ≤ t ∨ 4 ≤ e then .fault .noSuchUnit
  else
    let tl := s.tile t
    if e = 3 then
      if tl.core.waits && decide (s.lendNs t < tl.core.waitedNs) then .next (s.setTile t { tl with core := { tl.core with gated := true } })
      else .next s
    else if s.engineWaits t e && decide (s.lendNs t < (tl.engine e).waitedNs) then
      .next (s.setTile t (tl.setEngine e { tl.engine e with gated := true }))
    else .next s

/-- Is a tile quiet: every engine and the core gated, stopped by a fault or without a program, its router empty (R456)? -/
def State.tileQuiet (s : State) (t : Nat) : Bool :=
  let tl := s.tile t
  let r := s.router t
  (tl.faulted || tl.core.act == .off || (tl.mxe.gated && tl.vxe.gated && tl.xe.gated && tl.core.gated)) &&
  r.inq.all (fun p => p.2.isEmpty) && r.localOut.isNone

/-- No wharf path to a granule holds anything. -/
def State.wharfQuiet (s : State) (g : Nat) : Bool := (s.wharf g).inq.isEmpty && (s.wharf g).pulls.isEmpty

/-- DIE_CLOCK_STOP: a die without a Timed member, all quiet, has its clock stopped (R456). -/
def execDieClockStop (d : Nat) (s : State) : Out :=
  if 48 ≤ d then .fault .noSuchUnit
  else if s.clocked d && !s.dieTimed d && (dieGrans d).all (fun g => s.wharfQuiet g && (granTiles g).all s.tileQuiet) then
    .next (s.setDie d { s.die d with state := .stopped })
  else .next s

/-- WAKE_REQUEST: a stopped die's clock runs again at its previous step (R457); `merged` where the event met a toggle not yet
turned into its pulse, which sets XING_OVR (R472). -/
def execWakeRequest (d : Nat) (merged : Bool) (s : State) : Out :=
  if 48 ≤ d then .fault .noSuchUnit
  else
    let s := if (s.die d).state = .stopped then s.setDie d { s.die d with state := .running } else s
    if merged then
      let s := s.modPower (fun p => { p with xingOvr := p.xingOvr ||| BitVec.ofNat 60 (2 ^ d) })
      .next (s.postPF 0x53 1 (body [(24, 1, d)]))
    else .next s

/-! ### Telemetry samples (R423, R424) -/

/-- A compute group's sample from the measured power, voltage and current, with the telemetry gain of items 0x0700 on. -/
def State.groupSample (s : State) (g power volt amps : Nat) : GroupSample :=
  let dies := groupDies g
  let gain (x : Nat) : Nat := ((x : Int) * (1000000 + s.calValue (0x0700 + g)) / 1000000).toNat
  { time := s.now, throttling := dies.any (fun d => (s.die d).throttled), tripped := (s.power.tripped.find g).isSome
    off := !s.groupOnNow g, power := gain power, temp := hottest (dies.map (fun d => (s.die d).temp)), volt := volt, amps := amps }

/-- TELEMETRY_SAMPLE: each millisecond every compute group and the coolant are sampled; the last 64 are kept (R423). -/
def execTelemetrySample (groups : List (Nat × Nat × Nat)) (inlet outlet flowA flowB : Int) (drop : Nat) (s : State) : Out :=
  if groups.length ≠ numGroups then .fault .noSuchUnit
  else
    let c := s.coolantReading inlet outlet flowA flowB drop
    let p := s.power
    let samples : Tbl (List GroupSample) := ((List.range numGroups).zip groups).foldl (fun m q =>
      Tbl.set m q.1 ((s.groupSample q.1 q.2.1 q.2.2.1 q.2.2.2 :: Tbl.get [] m q.1).take 64)) p.samples
    .next { s with power := { p with samples := samples, coolant := c, coolSamples := (c :: p.coolSamples).take 64 } }

end Sys2Proof.Machine
end

