-- ==== Sys2Proof/Machine/Start.lean ====
section
/-! DEFINITION. The start of the device and its end (18_boot_firmware.md R476 to R487, R495 to R507; 19_module.md R511 to
R522; R449, R470). -/

namespace Sys2Proof.Machine

/-! ### Power down -/

/-- Everything but flash, fuses, the backup domain, host memory and the model's own counters returns to its reset value (R470). -/
def State.powerLost (s : State) : State :=
  { State.reset with pending := s.pending, now := s.now, free := s.free, hostMem := s.hostMem, nv := s.nv, orderedS := s.orderedS
                     gradeS := s.gradeS, boot := { aux := s.boot.aux, vbat := s.boot.vbat, pins := s.boot.pins } }

/-- Images that a service tool has written, (bank, bytes): each replaces its bank's image area and state record (R521).
[DESIGN CHOICE: log 95] -/
def State.serviceWrites (s : State) (l : List (Nat × List Nat)) : State :=
  l.foldl (fun s p => s.setBank p.1 { valid := true, image := Mem.writeBytes [] 0 (p.2.map (BitVec.ofNat 8)) }) s

/-- PWR_GOOD_FALL: every clock but CK57 stops, the input switch opens and all contents are lost (R470, R511, R532); an open
update is aborted (R491). `contacts`: what changed, bit 0 PWR_GOOD fell, bit 1 RESET_N fell, bit 2 the seat loop opened; several at
once are one fall (R513). `service`: what a service tool wrote while the device was in service mode. -/
def execPwrGoodFall (contacts : Nat) (service : List (Nat × List Nat)) (s : State) : Out :=
  if !s.boot.pg || contacts % 8 == 0 then .next s
  else
    let p := s.boot.pins
    let s := { s with boot := { s.boot with pins := { p with
      pwrGood := p.pwrGood && !bit contacts 0, resetN := p.resetN && !bit contacts 1, seat := p.seat && !bit contacts 2 } } }
    let s := if s.boot.phase = .service then s.serviceWrites service else s
    .next (s.fwAbort 4).powerLost

/-! ### Bank choice (R486) -/

/-- START event (R508). -/
def startEvent (s : State) (sub : Nat) (b : Nat) : Event := s.event 0x60 sub 0xFFFF 0xFFFF b

/-- An event that is posted at READY. -/
def State.later (s : State) (e : Event) : State := { s with boot := { s.boot with early := s.boot.early ++ [e] } }

/-- Copy and verification of bank `b`, attempt `i`: a copy that comes out wrong fails its hash. -/
def State.verifyCopy (s : State) (b i : Nat) : Except Nat FwImage :=
  if bit s.boot.env.badCopies (2 * b + i) then .error 2 else (s.bank b).check s.nv.revoked s.nv.fuses

/-- The boot ROM's choice over the banks in order: the bank that runs and its image. -/
def State.chooseBank (s : State) : List Nat → State × Option (Nat × FwImage)
  | [] => (s, none)
  | b :: rest =>
    let k := s.bank b
    if !k.valid || decide (3 ≤ k.fails) then s.chooseBank rest
    else
      let s := s.setBank b { k with fails := k.fails + 1 }
      match s.verifyCopy b 0 with
      | .ok v => (s, some (b, v))
      | .error _ => match s.verifyCopy b 1 with
        | .ok v => (s, some (b, v))
        | .error n =>
          let s := s.setBank b { s.bank b with valid := false }
          (s.later (startEvent s 3 (body [(24, 1, b), (25, 1, n)]))).chooseBank rest

/-- The order of the banks: the pending bank if any, else the active one, then the other. -/
def State.bankOrder (s : State) : List Nat :=
  let first := if s.nv.bankA.pending then 0 else if s.nv.bankB.pending then 1 else bankOf s.nv.activeB
  [first, 1 - first]

/-! ### Step 4: settings, profile, clock -/

/-- The settings area's format in flash, and the formats that release 4.2 writes and reads (R495). -/
def areaFormat (nv : Nonvolatile) (a : Nat) : Nat := if a = 1 then nv.profileFormat else if a = 2 then nv.calFormat else nv.historyFormat
def areaWritten (a : Nat) : Nat := if a = 2 then 3 else 2
def areaOldest (a : Nat) : Nat := if a = 2 then 2 else 1

/-- An area returns to its defaults in the current format. -/
def Nonvolatile.resetArea (nv : Nonvolatile) (a : Nat) : Nonvolatile :=
  if a = 1 then { nv with profiles := [], profileFormat := 2 }
  else if a = 2 then { nv with userCal := [], calFormat := 3, calStored := [] }
  else { nv with history := if nv.requalified then [{ date := 0, dateValid := false, what := 1 }] else [], historyFormat := 2 }

/-- One settings area at a start (R495): an older format or a failing CRC resets it, a newer one is left aside. -/
def State.readArea (s : State) (a : Nat) : State :=
  let f := areaFormat s.nv a
  let e := startEvent s 4 (body [(24, 1, a), (25, 1, f), (26, 1, areaWritten a)])
  if bit s.boot.env.badAreas a || decide (f < areaOldest a) then ({ s with nv := s.nv.resetArea a }).later e
  else if areaWritten a < f then ({ s with boot := { s.boot with defaulted := s.boot.defaulted ++ [a] } }).later e
  else s

/-- The values of a profile that take effect at once (R499, its table), the ports apart. -/
def State.takeProfile (s : State) (p : Profile) (i : Nat) : State :=
  let s := { s with boot := { s.boot with profile := p, profileIndex := i }, reserveGib := p.reserve }
  let s := s.modPower (fun w => { w with ceiling := p.ceiling })
  if s.power.flowOk then s.setCaps p.cap s.power.coolant
  else s.modPower (fun w => { w with cap := p.cap, effCap := p.cap, pcomp := p.cap - 2800, derated := false })

/-- The profile that PROFSEL names, P0 in place of an invalid one, the defaults in place of an invalid P0 (R498). -/
def State.startProfile (s : State) : State :=
  let n := s.boot.profsel % 4
  let p := s.storedProfile n
  if Profile.ok p n then s.takeProfile p n
  else if Profile.ok (s.storedProfile 0) 0 then (s.takeProfile (s.storedProfile 0) 0).profileEvent 2 0 0 n
  else
    let (s, x) := s.draw 8
    (s.takeProfile (Profile.default 0) 0).profileEvent 2 x.toNat 0 n

def canaryA : DWord := 0xA5C396E10F5A3CC3#64
def canaryB : DWord := 0x5A3C691EF0A5C33C#64

/-- TIME event (R508). -/
def timeEvent (s : State) (sub b : Nat) : Event := s.event 0x62 sub 0xFFFF 0xFFFF b

/-- The canary decides whether the clock is valid (R505); a clock that is invalid is reported at READY. [PRESUMED: log 100] -/
def State.readCanary (s : State) : State :=
  let r := s.nv.rtc
  if r.canaryA = canaryA ∧ r.canaryB = canaryB then (if r.valid then s else s.later (timeEvent s 1 0))
  else
    ({ s with nv := { s.nv with rtc := { r with count := 0, frac := 0, valid := false, canaryA := canaryA, canaryB := canaryB } } }).later
      (timeEvent s 1 0)

/-- The cell is measured: below 2.5 V it is reported (R507). -/
def State.measureCell (s : State) (mv : Nat) : State :=
  let s := { s with nv := { s.nv with rtc := { s.nv.rtc with cellMv := mv } }, boot := { s.boot with cellAt := s.now } }
  if mv < 2500 then s.postPF 0x62 4 (body [(24, 2, mv)]) else s

/-- CALIBRATION event (R508). -/
def State.calEvent (s : State) (sub n : Nat) : State := s.postPF 0x63 sub (body [(24, 2, n)])

/-- User deltas stored since the last application come into force, or a pending restore is carried out (R502). -/
def State.applyCal (s : State) : State :=
  let used : Tbl Int := if s.boot.defaulted.contains 2 then [] else s.nv.userCal
  if s.nv.calRestore then
    let n := s.nv.userCal.length
    let s := { s with nv := { s.nv with userCal := [], calStored := [], calRestore := false, calFormat := 3 }
                      boot := { s.boot with calUsed := [] } }
    let s := s.boot.restore.foldl (fun s w => s.settle w.1 w.2 stOK 0 0 0 0) s
    ({ s with boot := { s.boot with restore := [] } }).calEvent 2 n
  else if s.nv.calStored.isEmpty then { s with boot := { s.boot with calUsed := used } }
  else
    let n := s.nv.calStored.length
    ({ s with boot := { s.boot with calUsed := used }, nv := { s.nv with calStored := [] } }).calEvent 1 n

/-! ### Requalification (R449, R496) -/

/-- Rows `lo` to `hi - 1` of granules. -/
def rowsGrans (lo hi : Nat) : List Nat := (List.range numGranules).filter (fun g => decide (lo ≤ g / 32) && decide (g / 32 < hi))

/-- Stand-ins for failed granules of the grid, in ascending order, while spares, the limit of 8 and the paths allow; the
others are UNUSABLE. -/
def State.standIns (s : State) (bad : List Nat) : State :=
  bad.foldl (fun (s : State) g =>
    match s.chooseSpare g with
    | some spare =>
      let paths := s.freePaths.take 4
      if paths.length = 4 ∧ s.subst.length < 8 then s.substitute g spare paths
      else { s with granules := s.granules.set g .unusable }
    | none => { s with granules := s.granules.set g .unusable }) s

/-- REQUALIFIED event (R450). -/
def State.requalEvent (s : State) (sub : Nat) : State :=
  let n := (s.granules.filter (fun p => p.2 == .unusable)).length
  s.postPF 0x41 sub (body [(24, 1, n), (25, 1, s.detoured.length)])

/-- The decision of R449 over the granules that failed self-test. -/
def State.requalify (s : State) : State :=
  let bad := s.boot.env.unusable.eraseDups.filter (fun g => decide (g < numGranules))
  let inRows (lo hi : Nat) : List Nat := (rowsGrans lo hi).filter (fun g => bad.contains g)
  let spares (lo : Nat) : Nat := ((rowsGrans lo 18).filter (fun g => !bad.contains g)).length
  let was := s.orderedS || s.nv.requalified
  let s := { s with gradeS := was }
  let mark (s : State) (lo : Nat) : State := (inRows lo 18).foldl (fun (s : State) g => { s with granules := s.granules.set g .unusable }) s
  if !was && decide ((inRows 0 16).length ≤ 8) && decide ((inRows 0 16).length ≤ spares 16) then (mark s 16).standIns (inRows 0 16)
  else if decide ((inRows 0 14).length ≤ 8) && decide ((inRows 0 14).length ≤ spares 14) then
    if was then (mark s 14).standIns (inRows 0 14)
    else
      let r := s.nv.rtc
      let e : FaultEntry := { date := if r.valid then r.count else 0, dateValid := r.valid, what := 1 }
      let s := { s with gradeS := true, nv := { s.nv with requalified := true, history := s.nv.history ++ [e] } }
      ((mark s 14).standIns (inRows 0 14)).requalEvent 1
  else
    let lo := if was then 14 else 16
    ((mark s lo).standIns (inRows 0 lo)).requalEvent 2

/-! ### The start -/

/-- Steps 1 to 6, and the coolant's wait of step 7 begins: what `env` lets the device find. [DEDUCED: log 92] -/
def State.beginStart (s : State) : State :=
  let order := s.bankOrder
  let before (b : Nat) : Nat := (s.bank b).fails
  let (t, run) := s.chooseBank order
  match run with
  | none => { t with boot := { t.boot with phase := .halted } }
  | some (b, v) =>
    let t := t.setBank b { t.bank b with fails := before b }
    let t := { t with boot := { t.boot with
      running := some { bank := b, release := v.release, svn := v.svn, digest := v.digest }, failsBefore := before b
      fallback := if order.headD 0 = b then none else some (order.headD 0) } }
    let t := v.ignored.foldl (fun (t : State) i =>
      t.later (startEvent t 5 (body [(24, 1, b), (25, 1, i.1), (26, 1, i.2.1), (27, 1, b2n i.2.2)]))) t
    let t := [1, 2, 3].foldl (fun (t : State) a => t.readArea a) t
    let t := t.startProfile
    let t := t.readCanary
    let t := t.measureCell t.boot.env.cellMv
    let t := { t with entropy := { t.entropy with since := t.now } }
    if t.boot.env.sealBad then { t with boot := { t.boot with phase := .sealFailed }, lk := { state := .failed } }
    else
      let t := t.applyCal
      let t := t.requalify
      (t.modPower (fun p => { p with pdOn := p.pdOn ||| 2#20 }))

/-- The state of a device whose start begins at step 1: nothing remains but what survives a fall of PWR_GOOD. -/
def State.freshStart (s : State) (rise profsel : Nat) (env : StartEnv) : State :=
  let t := s.powerLost
  { t with boot := { t.boot with
      pg := true, phase := .starting, riseAt := rise, watchFrom := s.now, notVerifiedAt := s.now, profsel := profsel, env := env } }

/-- The start begins again at step 1 without a fall of PWR_GOOD, meeting the same surroundings (R480). [DEDUCED: log 94] -/
def State.restartStart (s : State) : State := (s.freshStart s.boot.riseAt s.boot.profsel s.boot.env).beginStart

/-- PWR_GOOD_RISE: the three contacts of the effective PWR_GOOD are high, PROFSEL is latched and the start runs, or with
SVC_EN_N low service mode is entered (R476, R498, R513, R521). [DESIGN CHOICE: log 160] -/
def execPwrGoodRise (profsel : Nat) (svc : Bool) (badCopies badAreas : Nat) (unusable : List Nat) (sealBad : Bool) (cellMv slotId : Nat)
    (s : State) : Out :=
  if s.boot.pg || !s.boot.aux then .next s
  else
    let env : StartEnv := { badCopies := badCopies, badAreas := badAreas, unusable := unusable, sealBad := sealBad, cellMv := cellMv }
    let pins : Pins := { s.boot.pins with pwrGood := true, resetN := true, seat := true, slotId := BitVec.ofNat 4 slotId, svcEnN := !svc }
    let s := { s with boot := { s.boot with pins := pins } }
    let t := s.freshStart s.now (profsel % 4) env
    .next (if svc then { t with boot := { t.boot with phase := .service } } else t.beginStart)

/-- START_WATCHDOG: 150 s without READY, the wait for flow apart (R480). -/
def execStartWatchdog (s : State) : Out :=
  if s.boot.phase = .starting ∧ s.boot.watchFrom + s.boot.waited + 150000000000 ≤ s.now then .next s.restartStart else .next s

/-- The security version that a bank's image states. [DEDUCED: log 97] -/
def Bank.svn (b : Bank) : Nat := if b.factory then 0 else imgField b.image 12 4

/-- Anti-rollback fuses are blown up to the lower security version of both banks (R484). -/
def State.blowFuses (s : State) (r : Running) : State :=
  let other := s.bank (1 - r.bank)
  if !other.valid then s
  else
    let f := min r.svn other.svn
    if f ≤ s.nv.fuses then s
    else ({ s with nv := { s.nv with fuses := f } }).postPF 0x61 3 (body [(24, 1, f)])

/-- START_READY: steps 7 to 10 are complete: domains on, unwanted groups off, Hold and ports up, LK_STATE READY, START posted,
ATTN_N pulsed, fuses advanced, the bank settled (R476, R478, R479, R484, R486, R520). -/
def execStartReady (s : State) : Out :=
  match s.boot.running with
  | none => .next s
  | some r =>
    if s.boot.phase ≠ .starting ∨ !s.power.flowOk ∨ !(s.entropy.seeded || s.entropy.st == .failed) then .next s
    else
      let s := { s with boot := { s.boot with phase := .ready, attnUntil := s.now + 100000000 }, lk := { state := .ready } }
      let s := s.modPower (fun p => { p with pdOn := p.pdOn ||| 0xFC000#20 })
      let s := (List.range numGroups).foldl (fun (s : State) g =>
        if s.groupOnNow g && !s.groupWanted g then (s.groupOff g).powerEvent 3 g else s) s
      let s := (List.range numLoops).foldl (fun (s : State) l => s.modLoop l (LoopPort.configure l s.boot.profile)) s
      let b : Bank := { s.bank r.bank with fails := 0, pending := false }
      let s := s.setBank r.bank b
      let s := { s with nv := { s.nv with activeB := decide (r.bank = 1) } }
      let s := s.postPF 0x60 1 (body [(24, 4, (s.now - s.boot.riseAt) / 1000000), (28, 1, r.bank), (29, 1, s.boot.profileIndex),
        (30, 1, b2n (!s.nv.rtc.valid) + 2 * b2n (s.entropy.st == .failed))])
      let s := match s.boot.fallback with
        | some a => s.postPF 0x60 2 (body [(24, 1, a), (25, 1, r.bank)])
        | none => s
      let s := s.boot.early.foldl (fun s e => s.postNum 0 e) s
      let s := { s with boot := { s.boot with early := [] } }
      .next (s.blowFuses r).capChangeAll

/-- MAIN_OVERCURRENT: the input switch opens until the next rise of PWR_GOOD: everything fed from the main supply is lost (R512).
[DEDUCED: log 99; DESIGN CHOICE: log 161] -/
def execMainOvercurrent (s : State) : Out :=
  if !s.boot.pg then .next s
  else
    let live := (s.ctxs.filter (fun p => decide (p.1 < numCtxs) && p.2.state.live)).map Prod.fst
    let s := live.foldl (fun s c => s.enterAborted c) s
    let s := (List.range numGroups).foldl (fun s g => s.groupLost g) s
    .next ((s.modPower (fun p => { p with flowOk := false })).mainOff)

/-- AUXILIARY_SUPPLY: the 12 V supply comes or goes; PD00 follows it, and the backup domain loses its contents when neither it
nor VBAT is present (R451, R503, R522). -/
def execAuxiliarySupply (present vbat : Bool) (s : State) : Out :=
  let s := if s.boot.aux && !present then s.powerLost else s
  let s := { s with boot := { s.boot with aux := present, vbat := vbat } }
  .next (if present || vbat then s else { s with nv := { s.nv with rtc := {} } })

/-! ### Core pairs before READY (R480) -/

/-- LOCKSTEP_MISMATCH of a core pair: before READY the whole start begins again, later the pair restarts (R447, R480).
[DESIGN CHOICE: log 163] -/
def execLockstepMismatch (pair : Nat) (s : State) : Out :=
  if 2 ≤ pair then .fault .noSuchUnit
  else if s.boot.phase = .starting then .next s.restartStart else .next (s.restartPair pair true)

/-- FIRMWARE_WATCHDOG: a pair's 10 ms watchdog expires (R447, R480). -/
def execFirmwareWatchdog (pair : Nat) (s : State) : Out :=
  if 2 ≤ pair then .fault .noSuchUnit
  else if s.boot.phase = .starting then .next s.restartStart else .next (s.restartPair pair false)

/-! ### Clock (R503, R506, R507) -/

/-- Seconds from 2000-01-01 00:00:00 to the end of 2399-12-31. -/
def rtcEnd : Nat := 146097 * 86400

/-- RTC_RANGE_END: the count has passed 2399-12-31 23:59:59 (R506). -/
def execRtcRangeEnd (s : State) : Out :=
  if s.boot.pg && s.nv.rtc.valid && decide (rtcEnd ≤ s.nv.rtc.count) then
    .next (({ s with nv := { s.nv with rtc := { s.nv.rtc with valid := false } } }).postNum 0 (timeEvent s 3 0))
  else .next s

/-- CELL_MEASURE: the cell is measured every 3,600 s (R507). -/
def execCellMeasure (mv : Nat) (s : State) : Out :=
  if s.boot.pg && decide (s.boot.cellAt + 3600000000000 ≤ s.now) then .next (s.measureCell mv) else .next s

/-! ### The time base (R54, R454, R456, R503, R519) -/

def Engine.busy (e : Engine) : Bool := e.exec.isSome || e.pending.isSome

/-- Which idle counter a member tile's tick goes to (R54): compute 0, exchange 1, sync wait 2, slack 3, stretch 4, imbalance 5,
evaluation 6. A member tile of a domain still FORMING, its core off and in no lock cycle, matches no row of the tables; the model
counts it as sync wait. [DEDUCED: log 102; DESIGN CHOICE: log 181] -/
def Tile.idleClass (t : Tile) (cx : Ctx) (now : Nat) : Nat :=
  let matrix := t.mxe.busy || t.vxe.busy
  let xe := t.xe.busy || t.sending.isSome || t.recvWait
  let nominal := !cx.elastic && cx.started
  if t.faulted || (t.core.stop.isSome && !matrix && !xe) then 4
  else if t.arrived then
    if nominal && decide (t.releaseAt + cx.period ≤ now) then 4
    else if t.arrivedMark = 1#2 then 5
    else if t.arrivedMark = 2#2 then 3
    else if t.arrivedMark = 3#2 then 6
    else if nominal then 3 else 4
  else if t.lock.acctMark = 1#2 then 5
  else if t.lock.acctMark = 2#2 then 3
  else if t.lock.acctMark = 3#2 then 6
  else if matrix || (t.core.stop.isNone && (t.core.act == .run || (match t.core.act with
      | .issStall _ _ => true
      | _ => false))) then 0
  else if xe then 1 else 2

/-- One idle counter counts. -/
def countIdle (l : Vector DWord 7) (i : Nat) : Vector DWord 7 := Vector.ofFn (fun k => if k.val = i then l[k] + 1 else l[k])

/-- How long the wait of an engine has lasted after one more nanosecond. -/
def State.engineTick (s : State) (t e : Nat) (en : Engine) : Engine :=
  if s.engineWaits t e then { en with waitedNs := en.waitedNs + 1 } else { en with waitedNs := 0, gated := false }

/-- One nanosecond at a tile: its idle counter, the cycles of its core's program, and its waits. -/
def State.tileTick (s : State) (t : Nat) (tl : Tile) (cycles : Nat) : Tile :=
  let tl := match tl.home with
    | some c =>
      if (s.ctx c).state.live then { tl with lock := { tl.lock with acct := countIdle tl.lock.acct (tl.idleClass (s.ctx c) s.now) } } else tl
    | none => tl
  let core := if tl.core.act == .off then tl.core else { tl.core with cycle := tl.core.cycle + BitVec.ofNat 64 cycles }
  let core := if core.waits then { core with waitedNs := core.waitedNs + 1 } else { core with waitedNs := 0, gated := false }
  { tl with core := core, mxe := s.engineTick t 0 tl.mxe, vxe := s.engineTick t 1 tl.vxe, xe := s.engineTick t 2 tl.xe }

/-- Cycles of a die's clock in one nanosecond, with the fraction carried (R454). -/
def DieClk.tick (d : DieClk) : DieClk × Nat :=
  if d.state = .running then
    let x := d.phase + 600 + 25 * d.step
    ({ d with phase := x % 1000 }, x / 1000)
  else (d, 0)

/-- The backup domain's clock counts one nanosecond of CK57, trimmed (R503). [DEDUCED: log 101] -/
def Rtc.tick (r : Rtc) (trim : Int) : Rtc :=
  let f := r.frac + (1000000000 + trim).toNat
  if f < 10 ^ 18 then { r with frac := f } else { r with frac := f - 10 ^ 18, count := r.count + 1 }

/-- Start state sensor (R519). -/
def Boot.startState (b : Boot) (lk : LkState) : Int :=
  match b.phase with
  | .off => 0
  | .starting => 1
  | .ready => if lk == .failed then 3 else 2
  | .halted => 4
  | .service => 5
  | .sealFailed => 6

/-- A reading in 1/16 °C in tenths of a degree, rounded down. [DESIGN CHOICE: log 103] -/
def tenths (t : Int) : Int := 10 * t / 16

/-- The sensors in the order of R519; the voltages are read when they are asked for. [DESIGN CHOICE: log 103] -/
def State.readSensors (s : State) : List Int :=
  let hot := hottest ((List.range 48).map (fun d => (s.die d).temp) ++ (List.range 32).map (fun k => (s.stack k).temp))
  [s.boot.startState s.lk.state, b2n s.power.flowOk, s.power.total.toNat, 0, 0, tenths s.power.coolant.inlet, tenths s.power.coolant.outlet,
   s.power.coolant.flowA, s.power.coolant.flowB, tenths hot, s.nv.rtc.cellMv]

/-- TIME_BASE_TICK: one nanosecond passes (R54). [DESIGN CHOICE: log 7] -/
def execTimeBaseTick (s : State) : Out :=
  let s := if s.boot.aux || s.boot.vbat then { s with nv := { s.nv with rtc := s.nv.rtc.tick (s.calValue 0x0600) } } else s
  let s := if s.boot.pg then
      let ticks := s.dies.map (fun p => (p.1, p.2.tick))
      let cyc (t : Nat) : Nat := (Tbl.get ({}, 0) ticks (dieOf t)).2
      let tiles := s.tiles.map (fun p => (p.1, s.tileTick p.1 p.2 (cyc p.1)))
      let waits := s.boot.phase == .starting && !s.power.flowOk
      { s with tiles := tiles, dies := ticks.map (fun p => (p.1, p.2.1))
               boot := { s.boot with waited := if waits then s.boot.waited + 1 else s.boot.waited } }
    else s
  let s := { s with now := s.now + 1 }
  .next (if s.boot.aux && s.now % 1000000000 == 0 then { s with boot := { s.boot with sensors := s.readSensors } } else s)

/-! ### Host ports and management before and after the start (R517, R519, R520) -/

/-- ATTN_N is low (R520). -/
def State.attnLow (s : State) : Bool :=
  decide (s.now < s.boot.attnUntil) || s.lk.state == .failed || (s.power.flowLostAt.isSome && !s.power.flowOk) ||
  s.boot.phase == .halted || s.boot.phase == .sealFailed

/-- The module's SMBus address and its I3C static address (R519). -/
def State.mgmtAddress (s : State) : Nat := 0x60 + s.boot.pins.slotId.toNat

/-- MCTP_REQUEST: message type 0 is MCTP control, 1 is PLDM monitoring of sensor `sensor` (`mv`: what a voltage sensor
measures now); every other type is unsupported (R519). -/
def execMctpRequest (ty sensor : Nat) (mv : Int) (s : State) : Out :=
  if !s.boot.aux then .next s
  else
    let a : MctpAnswer :=
      if ty = 0 then .control
      else if ty ≠ 1 ∨ 11 ≤ sensor then .unsupported
      else if sensor = 3 ∨ sensor = 4 then .sensor sensor mv
      else .sensor sensor (s.boot.sensors.getD sensor 0)
    .next { s with boot := { s.boot with mctp := s.boot.mctp ++ [a] } }

end Sys2Proof.Machine
end

