-- ==== Sys2Proof/Machine/Tenants.lean ====
section
/-! DEFINITION. Tenants: set-up, reset, release, policies and the resets of their functions (13_tenancy.md R352 to R377;
14_mailboxes.md R386; 19_module.md R518). -/

namespace Sys2Proof.Machine

/-! ### Events, and the commands that wait -/

/-- TENANT event (R402). -/
def State.tenantEvent (s : State) (sub n gran : Nat) : State := s.postPF 0x30 sub (body [(24, 1, n), (26, 2, gran)])

/-! ### Ending a domain on every member (R58, R349, R364) -/

/-- A domain is ended: here, from the root for every member, or by asking the root through its parent. [DEDUCED: log 105] -/
def State.abortDomain (s : State) (c : Nat) : State :=
  let cx := s.ctx c
  if cx.state = .stopped ∨ cx.state = .aborted then s
  else match s.fabric.grants.find cx.domainId with
    | some g =>
      if !cx.spans then s.abortCtx c
      else if g.root then s.abortTree c
      else if s.fabric.lostTrunks.contains g.parent then s.abortCtx c
      else (s.setCtx c { cx with abortReq := true }).sendLink g.parent
        (linkUnit lMemberLost [(0, 2, cx.domainId), (2, 2, s.fabric.devid), (4, 8, s.now)])
    | none => s.abortCtx c

/-! ### Stopping a tenant -/

/-- Virtual functions of a tenant on both ports. -/
def State.tenantFns (s : State) (n : Nat) : List Nat := s.fnsOf (n + 1)

/-- Does a waiting entropy request belong to the function? -/
def EntUse.ofFn (u : EntUse) (f : Nat) : Bool :=
  match u with
  | .keys _ => false
  | .seed _ g _ => g == f
  | .random g _ _ => g == f
  | .spdm g _ => g == f

/-- What waits for a context no longer names a command of function `f`: each has its outcome. -/
def Ctx.dropWaiters (cx : Ctx) (f : Nat) : Ctx :=
  { cx with staged := cx.staged.filter (fun g => g.fn != f), formation := cx.formation.filter (fun g => g.fn != f)
            abortBy := cx.abortBy.filter (fun w => w.1 != f), stepTarget := cx.stepTarget.filter (fun w => w.1 != f) }

/-- Every waiting command of the tenant completes with ABORTED, but for those in `keep` (R364). -/
def State.abortCommands (s : State) (n : Nat) (keep : List (Nat × Nat)) : State :=
  (s.tenantFns n).foldl (fun (s : State) f =>
    let fn := s.fn f
    let slots := (fn.slots.filter (fun p => p.2.running && p.2.ready.isNone)).map (fun p => p.1 + 16 * fn.epoch)
    let s := (slots.filter (fun k => !keep.contains (f, k))).foldl (fun (s : State) k => s.settle f k stAborted 0 0 0 0) s
    let s := (List.range 4).foldl (fun (s : State) i => s.modCtx (4 * n + i) (fun cx => cx.dropWaiters f)) s
    { s with entropy := { s.entropy with waiting := s.entropy.waiting.filter (fun w => !w.1.ofFn f) } }) s

/-- The tenant's domains end, its commands abort, and its units that no one has acknowledged are dropped (R239, R364). -/
def State.stopTenant (s : State) (n : Nat) (keep : List (Nat × Nat)) : State :=
  let s := (List.range 4).foldl (fun (s : State) i => s.abortDomain (4 * n + i)) s
  let s := s.abortCommands n keep
  let gs := s.tenantGrans n
  let dropped (b : Barge) : Bool := b.tenant == n && (b.ty == 2 || b.ty == 3 || b.ty == 4)
  let s := { s with egress := (s.egress.filter (fun (p : Nat × List Barge) => !gs.contains p.1)).map (fun (p : Nat × List Barge) => (p.1, p.2.filter (fun b => !dropped b)))
                    transit := s.transit.filter (fun b => !dropped b)
                    wharves := s.wharves.map (fun (p : Nat × Wharf) => if gs.contains p.1 then (p.1, p.2.stopped) else p)
                    ports := s.ports.map (fun (p : Nat × GPort) => (p.1, { p.2 with breqs := p.2.breqs.filter (fun b => b.tenant ≠ n) })) }
  s.modTenant n (fun t => { t with abortedAt := s.now })

/-- Does any unit still report something outstanding for the tenant (R239, R364)? -/
def State.outstanding (s : State) (n : Nat) : Bool :=
  (List.range 4).any (fun i => (s.ctx (4 * n + i)).state.live) ||
  s.transit.any (fun b => b.tenant == n) || s.egress.any (fun p => p.2.any (fun b => b.tenant == n)) ||
  s.stackTbl.any (fun p => p.2.ops.any (fun o => o.tenant == n) || p.2.merges.any (fun m => m.tenant == n && !m.waiting.isEmpty)) ||
  s.fabric.tags.any (fun e => e.2.req.tenant == n && !e.2.dead)

/-! ### Clearing (R365 step 4) -/

/-- The clearing of step 4 over the tenant's granules, contexts, shards and streams. -/
def State.clearTenant (s : State) (n : Nat) : State :=
  let gs := s.tenantGrans n
  let s := s.closeTenantQps n
  let shards := (s.ushd.filter (fun p => s.shardCtx p.1 / 4 == n)).map Prod.fst
  let s := s.clearGrans gs
  let s := (List.range 4).foldl (fun (s : State) i => s.freePairs (4 * n + i)) s
  { s with
    loads := s.loads.del n
    ushd := s.ushd.filter (fun p => !shards.contains p.1), ugrp := s.ugrp.filter (fun p => p.1 / 64 ≠ n)
    ctxs := s.ctxs.filter (fun p => p.1 / 4 ≠ n)
    stackTbl := s.stackTbl.map (fun p => (p.1, { p.2 with merges := p.2.merges.filter (fun m => m.tenant ≠ n) }))
    fabric := { s.fabric with circuits := s.fabric.circuits.filter (fun e => e.2.ctx / 4 ≠ n) } }

/-- Granules whose read-back found a bad word become UNUSABLE, each named to the provider (R366). -/
def State.scrubFails (s : State) (n : Nat) (bad : List Nat) : State :=
  bad.foldl (fun (s : State) g =>
    (({ s with granules := s.granules.set g .unusable }).modTenant n (fun t => { t with scrubFailed := true })).tenantEvent 3 n g) s

/-! ### Release (R365 to R367) -/

/-- Domain grants of a tenant are withdrawn (R365 step 5). -/
def State.dropGrants (s : State) (n : Nat) : State :=
  let mine := s.fabric.grants.filter (fun e => e.2.tenant == n)
  let s := mine.foldl (fun (s : State) e =>
    { s with ports := s.ports.map (fun p => if p.1 < 48 then (p.1, p.2.dropOwner e.1) else p) }) s
  { s with fabric := { s.fabric with grants := s.fabric.grants.filter (fun e => e.2.tenant ≠ n) } }

/-- Steps 2 to 6 of a release; `scrub`: physical granules whose read-back finds a bad word. -/
def State.finishRelease (s : State) (n : Nat) (scrub : List Nat) : State :=
  let t := s.tenant n
  let gs := s.tenantGrans n
  let bad := scrub.eraseDups.filter gs.contains
  let s := if (List.range 8).any s.basinLive then
    { s with fabric := { s.fabric with basinReleases := s.fabric.basinReleases ++ [n] } } else s
  let s := s.clearTenant n
  let s := s.dropGrants n
  let s := { s with ports := s.ports.map (fun (p : Nat × GPort) => if p.1 < 48 then p else (p.1, p.2.dropOwner n)) }
  let s := s.scrubGrans n gs
  let s := s.scrubFails n bad
  let s := s.setTenant n { scrubFailed := t.scrubFailed || !bad.isEmpty, debug := false }
  let s := t.releaseBy.foldl (fun (s : State) w => s.settle w.1 w.2 stOK 0 0 1 bad.length) s
  ((s.tenantEvent 2 n 0).capChange (n + 1)).groupsOn

/-- Step 1 of a release. -/
def State.startRelease (s : State) (n : Nat) : State :=
  (s.modTenant n (fun t => { t with st := .releasing, releaseWanted := false })).stopTenant n []

/-- A release is asked for, by a command or by a function that disappears (R365, R367). -/
def State.askRelease (s : State) (n : Nat) (by_ : Option (Nat × Nat)) : State :=
  match (s.tenant n).st with
  | .free | .releasing => match by_ with
    | some w => s.settle w.1 w.2 stOK 0 0 1 0
    | none => s
  | .active => (s.modTenant n (fun t => { t with releaseBy := t.releaseBy ++ by_.toList })).startRelease n
  | _ => s.modTenant n (fun t => { t with releaseWanted := true, releaseBy := t.releaseBy ++ by_.toList })

/-! ### Reset (R364) -/

/-- Commands of the tenant that are accepted and not yet taken, on either port, complete with ABORTED (R364, R386). -/
def State.abortAccepted (s : State) (n : Nat) : State :=
  (s.tenantFns n).foldl (fun (s : State) f =>
    if (s.fn f).waitingCmd.isSome then s.modFn f (fun x => { x with resp := some (Resp.status_ stAborted) }) else s) s

/-- A reset is asked for: it starts, or joins the one that runs (R364). [DEDUCED: log 106] -/
def State.askReset (s : State) (n : Nat) (by_ : Option (Nat × Nat)) : State :=
  match (s.tenant n).st with
  | .active =>
    let s := s.modTenant n (fun t => { t with st := .resetting, joined := by_.toList })
    (s.stopTenant n by_.toList).abortAccepted n
  | .resetting => s.modTenant n (fun t => { t with joined := t.joined ++ by_.toList })
  | _ => match by_ with
    | some w => s.settle w.1 w.2 stDenied 0x6000 0 0 0
    | none => s

/-- The reset ends: the region is cleared and its fences stand as before; a release that waited begins (R364, R367). -/
def State.finishReset (s : State) (n : Nat) (scrub : List Nat) : State :=
  let t := s.tenant n
  let bad := scrub.eraseDups.filter (s.tenantGrans n).contains
  let s := s.clearTenant n
  let s := s.scrubFails n bad
  let s := s.placeRegion n
  let s := s.modTenant n (fun t => { t with st := .active, joined := [], flr := [] })
  let s := t.joined.foldl (fun (s : State) w => s.settle w.1 w.2 (if bad.isEmpty then stOK else stTenantFault) 0 0 0 0) s
  if t.releaseWanted then s.startRelease n else s

/-- TENANT_RESET (R364): a virtual function names its own tenant. -/
def execTenantReset (f : Nat) (s : State) : Out :=
  deferredCmd f 0x0102 s
    (fun c => if fnNum f ≠ 0 ∧ fieldLE c 16 1 ≠ fnNum f - 1 then some (Resp.denied 3 16) else none)
    (fun c k s => s.askReset (fieldLE c 16 1) (some (f, k)))

/-- TENANT_RESET_COMPLETE: nothing is outstanding for the tenant any more: its reset or release ends (R239, R364, R365). -/
def execTenantResetComplete (n : Nat) (scrub : List Nat) (s : State) : Out :=
  if numTenants ≤ n then .fault .noSuchUnit
  else if s.outstanding n then .next s
  else match (s.tenant n).st with
    | .resetting => .next (s.finishReset n scrub)
    | .releasing => .next (s.finishRelease n scrub)
    | _ => .next s

/-- TENANT_RELEASE: where nothing is outstanding after step 1, the release ends at once (R365). -/
def execTenantRelease (f : Nat) (scrub : List Nat) (s : State) : Out :=
  deferredCmd f 0x0103 s (fun _ => none) (fun c k s =>
    let n := fieldLE c 16 1
    let was := (s.tenant n).st
    let s := s.askRelease n (some (f, k))
    if was = .active ∧ !s.outstanding n then s.finishRelease n scrub else s)

/-- RELEASE_BASIN_TIMEOUT: Basin requests outstanding 10 ms after the abort are abandoned and their replies discarded (R365). -/
def execReleaseBasinTimeout (n : Nat) (scrub : List Nat) (s : State) : Out :=
  if numTenants ≤ n then .fault .noSuchUnit
  else
    let t := s.tenant n
    if t.st ≠ .releasing ∨ s.now < t.abortedAt + 10000000 then .next s
    else
      let s := { s with fabric := { s.fabric with tags := s.fabric.tags.map (fun e =>
        if e.2.req.tenant = n then (e.1, { e.2 with dead := true }) else e) } }
      .next (if s.outstanding n then s else s.finishRelease n scrub)

/-! ### Set-up (R361 to R363) -/

/-- The resources that a set-up command asks for, with the profile's and the table's defaults (R354). -/
def State.asked (s : State) (c : Nat) : Tenant :=
  let w := fieldLE c 19 1
  let h := fieldLE c 20 1
  let g := w * h
  let total := if s.gradeS then 448 else 512
  let p : Profile := s.boot.profile
  let or (v d : Nat) : Nat := if v = 0 then d else v
  { st := .settingUp, scrubFailed := (s.tenant (fieldLE c 16 1)).scrubFailed, debug := (s.tenant (fieldLE c 16 1)).debug
    ox := fieldLE c 17 1, oy := fieldLE c 18 1, width := w, height := h
    canal := or (fieldLE c 28 2) (max 1 (496 * g / total)), basin := fieldLE c 30 2, syncQ := or (fieldLE c 32 1) (Profile.syncQ p)
    shard := or (fieldLE c 34 2) (max 1 (16384 * g / total)), loopQp := or (fieldLE c 36 2) (Profile.loopQps p * g / total)
    power := or (fieldLE c 38 2) (s.power.pcomp * g / total), baseGib := fieldLE c 24 2, sizeGib := fieldLE c 26 2 }

/-- The lowest base at which a window of `size` GiB fits below `top` (R357). -/
def State.lowestBase (s : State) (size top : Nat) : Option Nat :=
  (List.range (top + 1 - size)).find? (fun b => s.tenants.all (fun p =>
    p.2.sizeGib == 0 || decide (p.2.baseGib + p.2.sizeGib ≤ b) || decide (b + size ≤ p.2.baseGib)))

/-- The sum of a resource over all tenants. -/
def State.sumOf (s : State) (f : Tenant → Nat) : Nat := (s.tenants.map (fun p => f p.2)).sum

/-- Step 1 of a set-up: the status and detail that refuse it, or the tenant with everything reserved (R362). -/
def State.reserve (s : State) (c : Nat) : Except (Nat × Nat) Tenant :=
  let n := fieldLE c 16 1
  let old := s.tenant n
  let t := s.asked c
  let top := 1792 - s.reserveGib
  let bad (off : Nat) : Except (Nat × Nat) Tenant := .error (stDenied, 0x3000 + off)
  let none_ : Except (Nat × Nat) Tenant := .error (stNoResource, 0)
  match old.st with
  | .active => .error (stDenied, 0x6000)
  | .settingUp | .resetting | .releasing => .error (stBusy, 0)
  | .free =>
    if (s.tenantFns n).isEmpty then .error (stDenied, 0x6000)
    else if t.width = 0 ∨ 32 < t.width then bad 19
    else if t.height = 0 ∨ s.gridRows < t.height then bad 20
    else if 32 < t.ox + t.width then bad 17
    else if s.gridRows < t.oy + t.height then bad 18
    else if t.sizeGib = 0 ∨ top < t.sizeGib then bad 26
    else if t.baseGib ≠ 0xFFFF ∧ top < t.baseGib + t.sizeGib then bad 24
    else if 496 < t.canal then bad 28
    else if 464 < t.basin then bad 30
    else if 42 < t.syncQ then bad 32
    else
      let base := if t.baseGib = 0xFFFF then s.lowestBase t.sizeGib top else some t.baseGib
      match base, s.placeShare n t.canal with
      | some b, some (slots, access) =>
        let t := { t with baseGib := b, canalSlots := slots, accessSlots := access }
        if !s.regionFree n t || decide (496 < s.sumOf Tenant.canal + t.canal) ||
            decide (464 < s.sumOf Tenant.basin + t.basin) || decide (16384 < s.sumOf Tenant.shard + t.shard) ||
            decide (Profile.loopQps s.boot.profile < s.sumOf Tenant.loopQp + t.loopQp) ||
            decide (s.power.pcomp < s.sumOf Tenant.power + t.power) then none_
        else .ok t
      | _, _ => none_

/-- Everything that a set-up has reserved is returned: the device is as it was before step 1 (R362). -/
def State.failSetup (s : State) (n status : Nat) : State :=
  let t := s.tenant n
  let gs := s.tenantGrans n
  let s := gs.foldl (fun (s : State) g => if s.gran g = .owned n then { s with granules := s.granules.del g } else s) s
  let s := s.setTenant n { scrubFailed := t.scrubFailed, debug := t.debug }
  let s := match t.setupBy with
    | some w => s.settle w.1 w.2 status 0 0 0 0
    | none => s
  t.releaseBy.foldl (fun (s : State) w => s.settle w.1 w.2 stOK 0 0 1 0) s

/-- Does a hardware fault stop steps 2 to 5 of a set-up: a granule of the region without a spare, or two failed stacks of one
quadrant, on which lines of the window can no longer be filled (R236, R362)? [DEDUCED: log 168] -/
def State.setupFault (s : State) (n : Nat) : Bool :=
  (s.tenantGrans n).any (fun g => s.gran g == .unusable) || s.quadrants.any (fun q => decide (2 ≤ q.2.failed.length))

/-- Steps 2 to 6 of a set-up with the keys drawn: window, slot tables, fences, ACTIVE (R361). -/
def State.finishSetup (s : State) (n : Nat) (keys : BitVec 768) : State :=
  if s.setupFault n then s.failSetup n stTenantFault
  else
    let t := s.tenant n
    let s := s.zeroFill (t.baseGib * 2 ^ 24) ((t.baseGib + t.sizeGib) * 2 ^ 24)
    let s := (List.range 8).foldl (fun (s : State) i => if t.basin = 0 then s else s.modPort (48 + i) (fun p => p.giveSlots n t.basin)) s
    let s := s.placeRegion n
    let s := (s.modTenant n (fun t => { t with keys := some keys, st := .active, debug := true, setupBy := none })).measureTenant n
    let s := s.groupsOn
    let s := ((s.tenantEvent 1 n 0).capChange (n + 1))
    let s := match t.setupBy with
      | some w => s.settle w.1 w.2 stOK 0 0 48 (s.tenant n).report
      | none => s
    if t.releaseWanted then s.startRelease n else s

/-- The XTS key pair and the tag key are drawn with prediction resistance (R233, R295). [DESIGN CHOICE: log 162] -/
def State.drawKeys (s : State) (n : Nat) : State :=
  let (s, l) := s.drbgBytes 96 true
  s.finishSetup n (BitVec.ofNat 768 (leOf l))

/-- TENANT_SETUP (R361, R362); without entropy it waits or fails (R295). -/
def execTenantSetup (f : Nat) (s : State) : Out :=
  deferredCmd f 0x0101 s (fun _ => none) (fun c k s =>
    let n := fieldLE c 16 1
    match s.reserve c with
    | .error (st, d) => s.settle f k st d 0 0 0
    | .ok t =>
      let s := t.grans.foldl (fun (s : State) g => { s with granules := s.granules.set (s.physGran g) (.owned n) }) s
      let sub := (t.grans.filter (fun g => (s.subst.find g).isSome)).length
      let s := s.setTenant n { t with setupBy := some (f, k), subst := sub }
      match s.drawNow true with
      | .served => s.drawKeys n
      | .waits => s.drbgWait (.keys n) true
      | .fails => s.failSetup n stEntropy)

/-! ### Functions that reset or disappear (R386, R365, R518) -/

/-- What a Function Level Reset does to the function's page, session, slots and queue, and to what it owns (R386, R491). -/
def State.resetFn (s : State) (f : Nat) : State :=
  let s := s.setFn f { epoch := (s.fn f).epoch + 1, capgen := (s.fn f).capgen }
  let s := { s with entropy := { s.entropy with waiting := s.entropy.waiting.filter (fun w => !w.1.ofFn f) } }
  match fnTenant f with
  | none => match s.boot.update with
    | some u => if u.port = fnPort f then s.fwAbort 2 else s
    | none => s
  | some n =>
    let st := (s.tenant n).st
    let s := if st = .active ∨ st = .resetting ∨ st = .releasing then s.modTenant n (fun t => { t with flr := (t.flr ++ [f]).eraseDups }) else s
    s.askReset n none

/-- FUNCTION_LEVEL_RESET (R386). -/
def execFunctionLevelReset (f : Nat) (s : State) : Out :=
  if 514 ≤ f then .fault .noSuchUnit
  else if !s.fnExists f then .next s else .next (s.resetFn f)

/-- VF Enable of a host port is cleared: its virtual functions disappear; tenants that no port enables any more are released. -/
def State.clearVfs (s : State) (port : Nat) : State :=
  let n := if port = 0 then s.vfs.1 else s.vfs.2
  let gone := (List.range n).map (fun i => i)
  let s := gone.foldl (fun (s : State) i =>
    let f := fnOf port (i + 1)
    s.setFn f { epoch := (s.fn f).epoch + 1, capgen := (s.fn f).capgen }) s
  let s := { s with vfs := if port = 0 then (0, s.vfs.2) else (s.vfs.1, 0) }
  (gone.filter (fun i => (s.fnsOf (i + 1)).isEmpty && (s.tenant i).st != .free)).foldl (fun (s : State) i => s.askRelease i none) s

/-- VF_ENABLE_CLEAR at a host port (R365). -/
def execVfEnableClear (port : Nat) (s : State) : Out :=
  if 2 ≤ port then .fault .noSuchUnit
  else if s.boot.phase = .off then .next s else .next (s.clearVfs port)

/-- PERST_A_N or PERST_B_N at a level (R516, R518). -/
def State.setPerst (s : State) (port : Nat) (high : Bool) : State :=
  let p := s.boot.pins
  { s with boot := { s.boot with pins := { p with perstN := if port = 0 then (high, p.perstN.2) else (p.perstN.1, high) } } }

/-- PERST_ASSERT: PERST or loss of the data link resets every function of a host port and clears its VF Enable (R518).
`contact`: PERST_A_N or PERST_B_N fell; otherwise the data link was lost. -/
def execPerstAssert (port : Nat) (contact : Bool) (s : State) : Out :=
  let s := if contact then s.setPerst port false else s
  if 2 ≤ port then .fault .noSuchUnit
  else if s.boot.phase = .off then .next s
  else
    let n := if port = 0 then s.vfs.1 else s.vfs.2
    let s := (List.range (n + 1)).foldl (fun (s : State) i => s.resetFn (fnOf port i)) s
    .next (s.clearVfs port)

/-- PCIE_CONFIG_REQUEST at a host port: answered, with retry status until step 4 of the start has completed; `early` says
that a start under way has not come so far (R517); the port's PERST contact is high then. `vfs`: the request sets VF Enable, with that many virtual functions.
[DEDUCED: log 104] -/
def execPcieConfigRequest (port : Nat) (early : Bool) (vfs : Option Nat) (s : State) : Out :=
  if 2 ≤ port then .fault .noSuchUnit
  else
    let t := s.setPerst port true
    let answer (retry : Bool) : State := { t with boot := { t.boot with configAnswers := t.boot.configAnswers ++ [(port, retry)] } }
    match s.boot.phase with
    | .off => .next s
    | .starting | .ready =>
      let retry := s.boot.phase == .starting && early && decide (s.now < s.boot.riseAt + 900000000)
      let s := answer retry
      match retry, vfs with
      | false, some n =>
        if n = 0 ∨ 256 < n ∨ (if port = 0 then s.vfs.1 else s.vfs.2) ≠ 0 then .next s
        else .next { s with vfs := if port = 0 then (n, s.vfs.2) else (s.vfs.1, n) }
      | _, _ => .next s
    | _ => .next (answer true)

/-! ### Queries, policies and the repack -/

/-- TENANT_QUERY: the tenant block and HWINt; a virtual function names its own tenant (R355, R403). -/
def execTenantQuery (f : Nat) (s : State) : Out :=
  immediate f 0x0104 s (fun c s =>
    let n := fieldLE c 16 1
    if fnNum f ≠ 0 ∧ n ≠ fnNum f - 1 then (s, Resp.denied 3 16) else (s, Resp.ok 48 (s.tenant n).report))

/-- Has the tenant a domain RUNNING? -/
def State.tenantRuns (s : State) (n : Nat) : Bool := (List.range 4).any (fun i => (s.ctx (4 * n + i)).state == .running)

/-- TENANT_POLICY: reserved bits of the register are ignored (R13, R377). -/
def execTenantPolicy (f : Nat) (s : State) : Out :=
  immediate f 0x0105 s (fun c s =>
    let n := fieldLE c 16 1
    let v := fieldLE c 24 8
    if (s.tenant n).st ≠ .active then (s, Resp.denied 6 0)
    else if s.tenantRuns n then (s, Resp.status_ stNeedsQuiesce)
    else
      let s := (s.modTenant n (fun t => { t with debug := bit v 0, lendOut := bit v 1, lendIn := bit v 2 })).measureTenant n
      let b := body [(24, 1, n)]
      ((((s.postPF 0x30 4 b).postTenant n 0x30 4 0xFFFF b)).capChange (n + 1), Resp.done))

/-- SET_DEV_POLICY: reserved bits of the register are ignored (R13, R376, R377). -/
def execSetDevPolicy (f : Nat) (s : State) : Out :=
  immediate f 0x0507 s (fun c s =>
    let v := fieldLE c 24 8
    if s.tenants.any (fun p => (p.2.lendOut || p.2.lendIn) && s.tenantRuns p.1) then (s, Resp.status_ stNeedsQuiesce)
    else
      let s := { s with crossLend := bit v 0 }
      let (s, x) := s.draw 8
      let s := s.postPF 0x30 4 (body [(24, 1, x.toNat)])
      let s := (s.tenants.filter (fun p => p.2.st == .active)).foldl (fun (s : State) p => s.postTenant p.1 0x30 4 0xFFFF (body [(24, 1, p.1)])) s
      (s.capChangeAll, Resp.done))

/-- The slot tables in the order of a repack (R358): base sets by falling size, then the remaining slots. -/
def State.repacked (s : State) : Option (Tbl (List Nat)) :=
  let holders := (s.tenants.filter (fun p => decide (0 < p.2.canal))).map (fun p => (p.1, p.2.canal))
  let order := (List.range 9).reverse.flatMap (fun m => holders.filter (fun p => log2 p.2 == m))
  let bases := order.foldl (fun (r : Option (Tbl (List Nat))) p => r.bind (fun t =>
    (baseSet (idleSlots (t.flatMap Prod.snd)) p.2).map (fun l => Tbl.set t p.1 l))) (some [])
  bases.bind (fun t => holders.foldl (fun (r : Option (Tbl (List Nat))) p => r.bind (fun u =>
    let more := (idleSlots (u.flatMap Prod.snd)).take (p.2 - 2 ^ log2 p.2)
    if more.length = p.2 - 2 ^ log2 p.2 then some (Tbl.set u p.1 (Tbl.get [] u p.1 ++ more)) else none)) (some t))

/-- SLOT_REPACK (R358). -/
def execSlotRepack (f : Nat) (s : State) : Out :=
  deferredCmd f 0x0503 s (fun _ => none) (fun _ k s =>
    if s.ctxs.any (fun p => decide (p.1 < numCtxs) && p.2.state == .running) then s.settle f k stNeedsQuiesce 0 0 0 0
    else match s.repacked with
      | some t => (t.foldl (fun (s : State) p => s.modTenant p.1 (fun x => { x with canalSlots := p.2 })) s).settle f k stOK 0 0 0 0
      | none => s.settle f k stNoResource 0 0 0 0)

end Sys2Proof.Machine
end

