-- ==== Sys2Proof/Machine/Spdm.lean ====
section
/-! DEFINITION. What the SPDM responders say: capabilities, certificates, measurements, and the answers that need DRBG output
(13_tenancy.md R368 to R370; R295). -/

namespace Sys2Proof.Machine

/-- An answer leaves the responder of a function. -/
def State.spdmSay (s : State) (f : Nat) (a : SpdmAnswer) : State :=
  s.modFn f (fun x => { x with spdm := { x.spdm with out := x.spdm.out ++ [a] } })

def State.spdmErr (s : State) (f : Nat) (e : SpdmError) : State := s.spdmSay f (.error e)

/-- ENTROPY event of subtype 6 to the function (R370, R402). -/
def State.spdmEntropy (s : State) (f : Nat) : State :=
  (s.spdmErr f .unspecified).postTo f (s.event 0x31 6 ((fnTenant f).getD 0xFFFF) 0xFFFF (body [(24, 1, s.entropy.restarts)]))

/-- The capabilities of a responder (R368). -/
def spdmCaps : List SpdmCap := [.cert, .chal, .measSig, .keyEx, .mac, .encrypt, .hbeat, .keyUpd]

/-- The chain of slot 0: the device identity certificate, then the alias certificate for the running firmware (R368). -/
def State.certChain (s : State) : List (List Byte) := [Config.identityCert, Config.aliasCert ((s.boot.running.map Running.digest).getD 0)]

/-- The measurement of an index for a function; none where it offers none (R369). -/
def State.measurement (s : State) (f i : Nat) : Option Meas :=
  let r := s.boot.running
  match i, fnTenant f with
  | 1, _ => some (.digest 1 Config.romDigest)
  | 2, _ => some (.digest 2 ((r.map Running.digest).getD 0))
  | 3, _ => some (.raw 3 [(r.map Running.release).getD 0, (r.map Running.svn).getD 0, s.nv.fuses])
  | 4, _ => some (.raw 4 [b2n s.orderedS, b2n s.gradeS, s.boot.profileIndex, b2n s.crossLend])
  | 5, some n => some (.raw 5 (s.tenant n).meas5)
  | 6, some n => some (.raw 6 (s.tenant n).meas6)
  | _, _ => none

/-- Every measurement that a function offers. -/
def State.measurementsOf (s : State) (f : Nat) : List Meas := [1, 2, 3, 4, 5, 6].filterMap (s.measurement f)

/-- The lowest session number that no session holds. -/
def Spdm.freeSession (p : Spdm) : Option Nat := (List.range 4).find? (fun i => (p.sessions.find i).isNone)

/-- Does an answer need prediction resistance: session keys do, nonces do not (R295)? -/
def SpdmNeed.pr (n : SpdmNeed) : Bool := n == .keyExchange

/-- A number of output bytes. -/
def nonceOf (l : List Nat) : BitVec 256 := BitVec.ofNat 256 (leOf l)

/-- An answer is made with DRBG output that can be drawn now. [DESIGN CHOICE: log 115] -/
def State.spdmServe (s : State) (f : Nat) (need : SpdmNeed) : State :=
  match need with
  | .challenge =>
    let (s, l) := s.drbgBytes 32 false
    s.spdmSay f (.challengeAuth (nonceOf l))
  | .measurements i =>
    let (s, l) := s.drbgBytes 32 false
    if i = 0 then s.spdmSay f (.measurementCount (nonceOf l) (s.measurementsOf f).length)
    else
      let ms := if i = 255 then s.measurementsOf f else (s.measurement f i).toList
      s.spdmSay f (.measurements (nonceOf l) (ms.map Meas.block))
  | .keyExchange =>
    match (s.fn f).spdm.freeSession with
    | none => s.spdmErr f .sessionLimit
    | some i =>
      let (s, l) := s.drbgBytes 80 true
      (s.modFn f (fun x => { x with spdm := { x.spdm with
        sessions := x.spdm.sessions.set i { secret := BitVec.ofNat 384 (leOf (l.take 48)) } } })).spdmSay f (.keyExchange i (nonceOf (l.drop 48)))

/-- An answer that needs DRBG output: made at once, refused as Busy while the source restarts and as Unspecified where it has
failed, or else waiting its turn (R295, R370). [DEDUCED: log 179] -/
def State.spdmAsk (s : State) (f : Nat) (need : SpdmNeed) : State :=
  match s.drawNow need.pr with
  | .served => s.spdmServe f need
  | .waits => if s.entropy.st = .restarting then s.spdmErr f .busy else s.drbgWait (.spdm f need) need.pr
  | .fails => s.spdmEntropy f

end Sys2Proof.Machine
end

