-- ==== Sys2Proof/Machine/EntropySrc.lean ====
section
/-! DEFINITION. The entropy source, its health tests, and the consumers of the DRBG (10_stochastic.md R277, R278, R290 to
R296). -/

namespace Sys2Proof.Machine

def State.modEntropy (s : State) (f : Entropy → Entropy) : State := { s with entropy := f s.entropy }

/-- ENTROPY event (R402). -/
def State.entropyEvent (s : State) (sub : Nat) : State := s.postPF 0x31 sub (body [(24, 1, s.entropy.restarts)])

/-! ### Health tests (R291) -/

/-- A run of raw bits: the last bit, how often it has recurred, and whether a run reaches 41 in this window. -/
def runTest (raw : Nat) (n : Nat) (b : Bool) (len : Nat) : Bool × Nat × Bool :=
  (List.range n).foldl (fun (x : Bool × Nat × Bool) i =>
    let v := bit raw i
    let len := if v = x.1 ∧ x.2.1 ≠ 0 then x.2.1 + 1 else 1
    (v, len, x.2.2 || decide (len = 41))) (b, len, false)

/-- The adaptive proportion test: the first bit stands 795 times or more in the window. [DEDUCED: log 108] -/
def aptFails (raw : Nat) : Bool := decide (795 ≤ ((List.range 1024).filter (fun i => bit raw i == bit raw 0)).length)

/-- Both tests over one window: (RCT failed, APT failed), with the run carried on. -/
def Entropy.testWindow (e : Entropy) (raw : Nat) : Entropy × Bool × Bool :=
  let (b, len, rct) := runTest raw 1024 e.runBit e.runLen
  ({ e with runBit := b, runLen := len }, rct, aptFails raw)

/-- A passing or failing window is counted. -/
def Entropy.count (e : Entropy) (bad : Bool) : Entropy :=
  if bad then { e with failed := BitVec.ofNat 16 (satAdd 16 e.failed.toNat 1) } else { e with passed := e.passed + 1 }

/-! ### Requests that wait (R295) -/

/-- The seed of a context becomes the drawn value (R277, R278). [DEDUCED: log 111] -/
def State.drawSeed (s : State) (c f slot : Nat) : State :=
  if (s.ctx c).state ≠ .stopped then s.settle f slot stNeedsQuiesce 0 0 0 0
  else
    let (s, l) := s.drbgBytes 16 false
    let k0 := leOf (l.take 8)
    let k1 := leOf (l.drop 8)
    let s := s.modCtx c (fun cx => { cx with k0 := BitVec.ofNat 64 k0, k1 := BitVec.ofNat 64 k1, seedMarked := true })
    s.settle f slot stOK 0 0 16 (packLE [(0, 8, k0), (8, 8, k1)])

/-- The bytes of a GET_RANDOM. -/
def State.drawRandom (s : State) (f slot n : Nat) (pr : Bool) : State :=
  let (s, l) := s.drbgBytes n pr
  s.settle f slot stOK 0 0 n (leOf l)

/-- A request is served. -/
def State.serveUse (s : State) (u : EntUse) (pr : Bool) : State :=
  match u with
  | .keys n => s.drawKeys n
  | .seed c f slot => s.drawSeed c f slot
  | .random f slot n => s.drawRandom f slot n pr
  | .spdm f need => s.spdmServe f need

/-- A request completes with ENTROPY_FAILED. -/
def State.failUse (s : State) (u : EntUse) : State :=
  match u with
  | .keys n => s.failSetup n stEntropy
  | .seed _ f slot => s.settle f slot stEntropy 0 0 0 0
  | .random f slot _ => s.settle f slot stEntropy 0 0 0 0
  | .spdm f _ => s.spdmEntropy f

/-- Waiting requests are served in arrival order as long as the first can be. -/
def State.serveWaiting (s : State) : Nat → State
  | 0 => s
  | n + 1 =>
    match s.entropy.waiting with
    | [] => s
    | (u, pr) :: rest =>
      if s.drawNow pr = .served then ((s.modEntropy (fun e => { e with waiting := rest })).serveUse u pr).serveWaiting n else s

/-- Requests that can now be served. -/
def State.serveAll (s : State) : State := s.serveWaiting s.entropy.waiting.length

/-! ### Failure and restart (R293) -/

/-- A window has failed: outputs discarded, waiting requests failed, the source restarted, or FAILED after three restarts.
[DEDUCED: log 109] -/
def State.entropyFail (s : State) (rct apt startup : Bool) : State :=
  let waiting := s.entropy.waiting
  let s := s.modEntropy (fun e => { e with pool := [], waiting := [] })
  let s := waiting.foldl (fun (s : State) w => s.failUse w.1) s
  let s := s.modEntropy (fun e => { e with
    rctFail := e.rctFail || rct, aptFail := e.aptFail || apt, startFail := e.startFail || startup, runLen := 0 })
  let s := if startup then s.entropyEvent 3
    else
      let s := if rct then s.entropyEvent 1 else s
      if apt then s.entropyEvent 2 else s
  if 3 ≤ s.entropy.restarts then
    let resets := s.entropy.resets
    let s := (s.modEntropy (fun e => { e with st := .failed, resets := [] })).entropyEvent 4
    resets.foldl (fun (s : State) w => s.settle w.1 w.2 stEntropy 0 0 1 3) s
  else s.modEntropy (fun e => { e with st := .restarting, restarts := e.restarts + 1, since := s.now })

/-- The source runs: step 4 of a start has been reached. -/
def State.sourceRuns (s : State) : Bool := s.boot.pg && s.boot.running.isSome

/-- ENTROPY_WINDOW: the 1,024 raw bits of a window are tested, and conditioned if they pass (R291 to R293).
[DESIGN CHOICE: log 11] -/
def execEntropyWindow (raw : Nat) (s : State) : Out :=
  if !s.sourceRuns || s.entropy.st != .ok || decide (s.now < s.entropy.windowAt + 16000) then .next s
  else
    let (e, rct, apt) := s.entropy.testWindow raw
    let bad := rct || apt
    let s := { s with entropy := { e.count bad with windowAt := s.now } }
    if bad then .next (s.entropyFail rct apt false)
    else
      let x : BitVec 384 := BitVec.ofNat 384 (ofBytesBE (sha384 (bytesLE 128 raw)))
      let s := s.modEntropy (fun e => { e with pool := e.pool ++ [x], restarts := 0 })
      let s := if s.entropy.seeded then s else s.drbgInstantiate
      .next s.serveAll

/-- ENTROPY_RESTART_SETTLED: the start-up tests over four windows, at a start or after a restart's 1 ms (R291, R293). -/
def execEntropyRestartSettled (raw : Nat) (s : State) : Out :=
  let wait := if s.entropy.st = .startup then 64000 else 1064000
  if !s.sourceRuns || !(s.entropy.st == .startup || s.entropy.st == .restarting) || decide (s.now < s.entropy.since + wait) then .next s
  else
    let r := (List.range 4).foldl (fun (x : Entropy × Bool × Bool) i =>
      let (e, rct, apt) := x.1.testWindow (raw >>> (1024 * i))
      (e.count (rct || apt), x.2.1 || rct, x.2.2 || apt)) ({ s.entropy with runLen := 0 }, false, false)
    let was := s.entropy.st
    let s := { s with entropy := r.1 }
    if r.2.1 || r.2.2 then .next (s.entropyFail r.2.1 r.2.2 true)
    else
      let resets := s.entropy.resets
      let s := s.modEntropy (fun e => { e with st := .ok, windowAt := s.now, resets := [] })
      let s := if was = .restarting then s.entropyEvent 5 else s
      let s := resets.foldl (fun (s : State) w => s.settle w.1 w.2 stOK 0 0 1 1) s
      .next s.serveAll

/-- DRBG_RESEED: a reseed that is due takes place (R294). -/
def execDrbgReseed (s : State) : Out :=
  if s.sourceRuns && s.reseedDue && s.entropy.st == .ok && !s.entropy.pool.isEmpty then .next s.drbgReseed.serveAll else .next s

/-- ENTROPY_RESET: the budget of restarts is restored and the source restarts (R293). -/
def execEntropyReset (f : Nat) (s : State) : Out :=
  deferredCmd f 0x0504 s (fun _ => none) (fun _ k s =>
    s.modEntropy (fun e => { e with st := .restarting, restarts := 0, since := s.now, runLen := 0, resets := e.resets ++ [(f, k)] }))

/-- ENTROPY_SAMPLE: raw bits of the capture buffer go to the host (R290); `raw` holds them, bit 0 first; `bus` is a completion
error on the transfer (R394). [DEDUCED: log 110] -/
def execEntropySample (f raw : Nat) (bus : Bool) (s : State) : Out :=
  deferredCmd f 0x0706 s s.descFault (fun c k s =>
    let n := fieldLE c 16 4
    if bus then s.settle f k stIntegrity 0 0 0 0
    else if n = 0 ∨ n % 1024 ≠ 0 then s.settle f k stDenied 0x3010 0 0 0
    else match s.descWrite c (bytesLE (n / 8) raw) with
      | .ok s => s.settle f k stOK 0 0 4 n
      | .error d => s.settle f k stNoResource d 0 0 0)

/-! ### Consumers (R277, R278, R295) -/

/-- GET_RANDOM: 1 to 224 bytes, with prediction resistance where asked (R295). -/
def execGetRandom (f : Nat) (s : State) : Out :=
  deferredCmd f 0x0005 s (fun _ => none) (fun c k s =>
    let n := fieldLE c 16 2
    let pr := bit (fieldLE c 18 1) 0
    if n = 0 ∨ 224 < n then s.settle f k stDenied 0x3010 0 0 0
    else if 2 ≤ fieldLE c 18 1 then s.settle f k stDenied 0x3012 0 0 0
    else match s.drawNow pr with
      | .served => s.drawRandom f k n pr
      | .waits => s.drbgWait (.random f k n) pr
      | .fails => s.settle f k stEntropy 0 0 0 0)

/-- The device context that a command's CTX field names: a virtual function its own 0 to 3, the PF 0 to 1,023 (R403). -/
def ctxOf (f c : Nat) : Except Resp Nat :=
  let x := fieldLE c 16 2
  match fnTenant f with
  | some t => if 3 < x then .error (Resp.denied 3 16) else .ok (4 * t + x)
  | none => if numCtxs ≤ x then .error (Resp.denied 3 16) else .ok x

/-- The refusal of a CTX field, if any. -/
def ctxFault (f c : Nat) : Option Resp :=
  match ctxOf f c with
  | .ok _ => none
  | .error r => some r

/-- An immediate command about the context that its CTX names. -/
def ctxCmd (f code : Nat) (s : State) (run : Nat → Nat → State → State × Resp) : Out :=
  immediate f code s (fun c s =>
    match ctxOf f c with
    | .ok x => run x c s
    | .error r => (s, r))

/-- A deferred command about a context. -/
def ctxDeferred (f code : Nat) (s : State) (early : Nat → Nat → Option Resp) (start : Nat → Nat → Nat → State → State) : Out :=
  deferredCmd f code s
    (fun c => match ctxOf f c with
      | .ok x => early x c
      | .error r => some r)
    (fun c k s => match ctxOf f c with
      | .ok x => start x c k s
      | .error _ => s)

/-- SEED_SET: the seed of a STOPPED context is set and marked (R277, R278). -/
def execSeedSet (f : Nat) (s : State) : Out :=
  ctxCmd f 0x0202 s (fun x c s =>
    if (s.ctx x).state ≠ .stopped then (s, Resp.status_ stNeedsQuiesce)
    else (s.modCtx x (fun cx => { cx with
      k0 := BitVec.ofNat 64 (fieldLE c 24 8), k1 := BitVec.ofNat 64 (fieldLE c 32 8), seedMarked := true }), Resp.done))

/-- SEED_DRAW: the seed is drawn from the DRBG and returned (R277, R278, R295). -/
def execSeedDraw (f : Nat) (s : State) : Out :=
  ctxDeferred f 0x0203 s (fun x _ => if (s.ctx x).state ≠ .stopped then some (Resp.status_ stNeedsQuiesce) else none)
    (fun x _ k s => match s.drawNow false with
      | .served => s.drawSeed x f k
      | .waits => s.drbgWait (.seed x f k) false
      | .fails => s.settle f k stEntropy 0 0 0 0)

end Sys2Proof.Machine
end

