-- ==== Sys2Proof/Machine/ImageFile.lean ====
section
/-! DEFINITION. Program images as byte strings: header, sections and records, and the checks on them that need no state
of the device (11_program_contract.md, R298, R307 steps 1, 2, 5 to 7, R308, R309). -/

namespace Sys2Proof.Machine

/-! ### Byte strings -/

def leAt (l : List Byte) (o n : Nat) : Nat := ofBytesLE ((l.drop o).take n)
def slice (l : List Byte) (o n : Nat) : List Byte := (l.drop o).take n
/-- Records of `n` bytes, in order. -/
def recordsOf (n : Nat) (l : List Byte) : List (List Byte) := (List.range (l.length / n)).map (fun i => slice l (n * i) n)
/-- Are all listed fields, as (offset, length), zero? -/
def zeroFields (l : List Byte) (fs : List (Nat × Nat)) : Bool := fs.all (fun p => leAt l p.1 p.2 == 0)
/-- Is a list strictly rising? -/
def rising : List Nat → Bool
  | a :: b :: r => decide (a < b) && rising (b :: r)
  | _ => true
/-- Does no value appear twice? -/
def distinct (l : List Nat) : Bool := l.eraseDups.length == l.length

/-! ### Records (R298) -/

/-- A domain record. -/
structure ImgDom where
  elastic : Bool
  exact : Bool
  fpass : Bool
  rects : List (Nat × Nat × Nat × Nat)   -- gx0, gy0, width, height
  period : Nat
  pProved : Nat
  oAssumed : Nat
  lstep : Nat
  n0 : Nat
  wsweep : Nat
  exps : Nat
  k0 : DWord
  k1 : DWord
  stretch : Nat

/-- A tile record. -/
structure ImgTile where
  x : Nat
  y : Nat
  body : Nat
  entry : Nat
  nfill : Nat
  planEnd : Nat
  dom : Nat
  data : Nat

def noBody : Nat := 0xFFFFFFFF
/-- Does the tile run a program? [DEDUCED: log 119] -/
def ImgTile.runs (t : ImgTile) : Bool := t.body != noBody

/-- A stream record. -/
structure ImgStream where
  gx : Nat
  gy : Nat
  idx : Nat
  view : Bool
  e : BitVec 256

/-- A spill level from 1 on (R309). -/
structure ImgLevel where
  holdLines : Nat
  basinLines : Nat
  p : List Nat
  lbound : Nat
  frozen : Bool
  streams : List ImgStream
  shards : List Ushd

/-- A parsed image. -/
structure Img where
  bytes : List Byte
  tclass : Nat
  spillOk : Bool
  rw : Nat
  rh : Nat
  holdLines : Nat
  caps : List (Nat × Nat)
  doms : List ImgDom
  bodies : List Byte
  tiles : List ImgTile
  syncs : List (Nat × Nat × List (Nat × Nat))     -- x, y, (handle, count)
  routes : List (Nat × Nat × BitVec 128)
  streams : List ImgStream
  shards : List Ushd
  groups : List (Nat × List Byte)
  repl : List (Nat × List (Nat × Nat))
  levels : List ImgLevel

/-- A refusal: status, and the fit report as bytes 0 to 31 (R307, R308). -/
structure LoadFail where
  status : Nat
  fit : Nat := 0
  detail : Nat := 0

/-- A fit report (R308). -/
def fitReport (kind level x y tid region required available : Nat) : Nat :=
  packLE [(0, 1, kind), (1, 1, level), (2, 2, x), (4, 2, y), (8, 4, tid), (12, 4, region), (16, 8, required), (24, 8, available)]

def imageInvalid : LoadFail := { status := stImage }

/-! ### Sections -/

/-- A domain record, none where a field lies outside its range. -/
def parseDom (r : List Byte) : Option ImgDom :=
  let n := leAt r 1 1
  let rect (i : Nat) := (leAt r (64 + 8 * i) 2, leAt r (66 + 8 * i) 2, leAt r (68 + 8 * i) 2, leAt r (70 + 8 * i) 2)
  let rects := (List.range n).map rect
  if leAt r 0 1 ≤ 1 ∧ 1 ≤ n ∧ n ≤ 16 ∧ leAt r 2 1 ≤ 1 ∧ leAt r 3 1 ≤ 1 ∧ (leAt r 0 1 = 0 ∨ leAt r 4 4 = 0) ∧ leAt r 48 4 < 2 ^ 26 ∧
      zeroFields r [(23, 1), (52, 12), (64 + 8 * n, 192 - 8 * n)] ∧ rects.all (fun q => decide (0 < q.2.2.1) && decide (0 < q.2.2.2)) then
    some { elastic := leAt r 0 1 == 1, exact := leAt r 2 1 == 1, fpass := leAt r 3 1 == 1, rects := rects, period := leAt r 4 4
           pProved := leAt r 8 4, oAssumed := leAt r 12 2, lstep := leAt r 14 2, n0 := leAt r 16 6, wsweep := leAt r 22 1
           exps := leAt r 24 8, k0 := BitVec.ofNat 64 (leAt r 32 8), k1 := BitVec.ofNat 64 (leAt r 40 8), stretch := leAt r 48 4 }
  else none

/-- The tile record of tile `i` of a region `w` tiles wide. [DEDUCED: log 118] -/
def parseTile (w i : Nat) (r : List Byte) : Option ImgTile :=
  if zeroFields r [(13, 3), (20, 12)] ∧ (leAt r 0 4 = noBody ∨ leAt r 4 2 < 4096) then
    some { x := i % w, y := i / w, body := leAt r 0 4, entry := leAt r 4 2, nfill := leAt r 6 2, planEnd := leAt r 8 4
           dom := leAt r 12 1, data := leAt r 16 4 }
  else none

/-- A stream record. -/
def parseStream (r : List Byte) : Option ImgStream :=
  if zeroFields r [(6, 2), (40, 24)] ∧ leAt r 5 1 ≤ 1 then
    some { gx := leAt r 0 2, gy := leAt r 2 2, idx := leAt r 4 1, view := leAt r 5 1 == 1, e := BitVec.ofNat 256 (leAt r 8 32) }
  else none

/-- The groups of a SYNC section. -/
def parseSyncs : Nat → List Byte → Option (List (Nat × Nat × List (Nat × Nat)))
  | 0, l => if l.isEmpty then some [] else none
  | n + 1, l =>
    if l.isEmpty then some []
    else
      let cnt := leAt l 4 2
      let es := recordsOf 4 (slice l 8 (4 * cnt))
      if cnt = 0 ∨ 256 < cnt ∨ l.length < 8 + 4 * cnt ∨ leAt l 6 2 ≠ 0 ∨ es.any (fun e => leAt e 1 1 != 0) ∨
          !rising (es.map (fun e => leAt e 0 1)) then none
      else (parseSyncs n (l.drop (8 + 4 * cnt))).map (fun r => (leAt l 0 2, leAt l 2 2, es.map (fun e => (leAt e 0 1, leAt e 2 2))) :: r)

/-- The sets of a REPLSETS section. -/
def parseRepl : Nat → List Byte → Option (List (Nat × List (Nat × Nat)))
  | 0, l => if l.isEmpty then some [] else none
  | n + 1, l =>
    if l.isEmpty then some []
    else
      let cnt := leAt l 1 1
      if l.length < 2 + 4 * cnt ∨ 64 ≤ leAt l 0 1 then none
      else (parseRepl n (l.drop (2 + 4 * cnt))).map (fun r =>
        (leAt l 0 1, (recordsOf 4 (slice l 2 (4 * cnt))).map (fun e => (leAt e 0 2, leAt e 2 2))) :: r)

/-- Are the level's periods zero for Elastic domains and for domains the image does not have? -/
def levelPeriodsOk (doms : List ImgDom) (p : List Nat) : Bool :=
  (List.range 4).all (fun i => p.getD i 0 == 0 || (match doms[i]? with
    | some d => !d.elastic
    | none => false))

/-- The levels of a SPILL section; `last` is the Hold need of the level before (R309). -/
def parseLevels (doms : List ImgDom) : Nat → Nat → List Byte → Option (List ImgLevel)
  | 0, _, l => if l.isEmpty then some [] else none
  | n + 1, last, l =>
    if l.isEmpty then some []
    else
      let nrepl := leAt l 40 4
      let nshard := leAt l 44 4
      let p := (List.range 4).map (fun i => leAt l (16 + 4 * i) 4)
      let recs := recordsOf 64 (slice l 64 (64 * nrepl))
      if l.length < 64 + 64 * nrepl ∨ nrepl < nshard ∨ 1 < leAt l 36 1 ∨ !zeroFields l [(37, 3), (48, 16)] ∨ last ≤ leAt l 0 8 ∨
          !levelPeriodsOk doms p then none
      else match (recs.take (nrepl - nshard)).mapM parseStream, parseLevels doms n (leAt l 0 8) (l.drop (64 + 64 * nrepl)) with
        | some ss, some r =>
          some ({ holdLines := leAt l 0 8, basinLines := leAt l 8 8, p := p, lbound := leAt l 32 4, frozen := leAt l 36 1 == 1
                  streams := ss, shards := (recs.drop (nrepl - nshard)).map (fun x => BitVec.ofNat 512 (ofBytesLE x)) } :: r)
        | _, _ => none

/-- One section: its type and bytes, none where its table entry or its CRC is bad. -/
def parseSection (l : List Byte) (i : Nat) : Option (Nat × Nat × List Byte) :=
  let e := slice l (128 + 32 * i) 32
  let ty := leAt e 0 2
  let off := leAt e 8 8
  let len := leAt e 16 8
  let bytes := slice l off len
  if zeroFields e [(2, 2), (24, 8)] ∧ 1 ≤ ty ∧ ty ≤ 11 ∧ off % 64 = 0 ∧ off + len ≤ l.length ∧ crc32c bytes = leAt e 4 4 then some (ty, off, bytes)
  else none

/-- Do sections overlap neither one another nor the header and table of `hdr` bytes? -/
def sectionsApart (hdr : Nat) (ss : List (Nat × Nat × List Byte)) : Bool :=
  let full := ss.filter (fun s => !s.2.2.isEmpty)
  full.all (fun a => decide (hdr ≤ a.2.1) && full.all (fun b => a.1 == b.1 || decide (a.2.1 + a.2.2.length ≤ b.2.1) ||
    decide (b.2.1 + b.2.2.length ≤ a.2.1)))

/-- Do two shard entries name the same tensor and box? -/
def sameBox (a b : Ushd) : Bool :=
  shTid a == shTid b && shRows a == shRows b && shCols a == shCols b && shGrow0 a == shGrow0 b && shGcol0 a == shGcol0 b

/-- Does every replacement of a level name a record of level 0? [DEDUCED: log 127] -/
def Img.replacesOk (i : Img) : Bool :=
  i.levels.all (fun l => l.streams.all (fun r => i.streams.any (fun a => r.gx == a.gx && r.gy == a.gy && r.idx == a.idx)) &&
    l.shards.all (fun r => i.shards.any (sameBox r)))

/-- What a level moves to the Basin: streams that read it, by granule and index, and shards that leave the device, by box.
[DEDUCED: log 127] -/
def ImgLevel.spilled (l : ImgLevel) : List ImgStream × List Ushd := (l.streams.filter (fun a => wstBasin a.e), l.shards.filter (fun e => !shValid e))

/-- Does each level move what the level before it moves (R309)? -/
def levelsNested : List ImgLevel → Bool
  | a :: b :: r =>
    a.spilled.1.all (fun x => b.spilled.1.any (fun y => x.gx == y.gx && x.gy == y.gy && x.idx == y.idx)) &&
    a.spilled.2.all (fun x => b.spilled.2.any (sameBox x)) && levelsNested (b :: r)
  | _ => true

/-- Are the reserved bits of the route, stream and shard entries and of the group records zero (R13, R307 step 2)? -/
def Img.reservedOk (i : Img) : Bool :=
  i.routes.all (fun r => bits r.2.2.toNat 31 1 == 0 && bits r.2.2.toNat 104 24 == 0) &&
  (i.streams ++ i.levels.flatMap ImgLevel.streams).all (fun a => bits a.e.toNat 192 64 == 0) &&
  (i.shards ++ i.levels.flatMap ImgLevel.shards).all (fun e =>
    bits e.toNat 3 1 == 0 && bits e.toNat 41 23 == 0 && bits e.toNat 195 29 == 0 && bits e.toNat 416 96 == 0) &&
  i.groups.all (fun g => leAt g.2 48 16 == 0 && leAt g.2 576 448 == 0)

/-- The image of a header whose MAGIC, length, CRC and ABI are good: `l` is its first IMGLEN bytes (R307 step 2). -/
def parseBody (l : List Byte) : Option Img :=
  let nsect := leAt l 24 4
  let rw := leAt l 8 2
  let rh := leAt l 10 2
  let ndom := leAt l 12 1
  if 1 < leAt l 6 1 ∨ 1 < leAt l 7 1 ∨ rw = 0 ∨ 32 < rw ∨ rh = 0 ∨ 16 < rh ∨ ndom = 0 ∨ 4 < ndom ∨ nsect = 0 ∨ 64 < nsect ∨
      l.length < 128 + 32 * nsect ∨ !zeroFields l [(13, 3), (40, 88)] then none
  else match (List.range nsect).mapM (parseSection l) with
    | none => none
    | some ss =>
      let sec (ty : Nat) : Option (List Byte) := (ss.find? (fun s => s.1 == ty)).map (fun s => s.2.2)
      let opt (ty : Nat) : List Byte := (sec ty).getD []
      let sized (ty n : Nat) : Bool := (opt ty).length % n == 0
      let spill := leAt l 7 1 == 1
      if !distinct (ss.map Prod.fst) ∨ !sectionsApart (128 + 32 * nsect) ss ∨ !(List.all [1, 2, 3, 4] (fun ty => (sec ty).isSome)) ∨
          (spill && (sec 11).isNone) ∨ !sized 1 4 ∨ (opt 2).length ≠ 256 * ndom ∨ (opt 4).length ≠ 512 * rw * rh ∨ !sized 6 24 ∨ !sized 7 64 ∨
          !sized 8 64 ∨ !sized 9 1032 then none
      else
        let routes := recordsOf 24 (opt 6)
        let groups := recordsOf 1032 (opt 9)
        let tiles := (recordsOf 32 (opt 4)).zip (List.range (16 * rw * rh))
        match (recordsOf 256 (opt 2)).mapM parseDom, tiles.mapM (fun p => parseTile (4 * rw) p.2 p.1), parseSyncs (opt 5).length (opt 5),
            (recordsOf 64 (opt 7)).mapM parseStream, parseRepl (opt 10).length (opt 10) with
        | some doms, some tiles, some syncs, some streams, some repl =>
          match parseLevels doms (opt 11).length (leAt l 32 8) (opt 11) with
          | none => none
          | some levels =>
            if (recordsOf 4 (opt 1)).any (fun r => leAt r 3 1 != 0) ∨ routes.any (fun r => leAt r 4 4 != 0) ∨
                groups.any (fun r => leAt r 1 7 != 0) ∨ !rising (syncs.map (fun g => 65536 * g.2.1 + g.1)) ∨
                ((sec 11).isSome && (levels.isEmpty || decide (8 < levels.length))) then none
            else
              let i : Img := {
              bytes := l, tclass := leAt l 6 1, spillOk := spill, rw := rw, rh := rh, holdLines := leAt l 32 8
              caps := (recordsOf 4 (opt 1)).map (fun r => (leAt r 0 2, leAt r 2 1)), doms := doms, bodies := opt 3, tiles := tiles
              syncs := syncs, routes := routes.map (fun r => (leAt r 0 2, leAt r 2 2, BitVec.ofNat 128 (leAt r 8 16))), streams := streams
              shards := (recordsOf 64 (opt 8)).map (fun r => BitVec.ofNat 512 (ofBytesLE r))
              groups := groups.map (fun r => (leAt r 0 1, r.drop 8)), repl := repl, levels := levels }
              if i.replacesOk && levelsNested levels && i.reservedOk then some i else none
        | _, _, _, _, _ => none

/-- Steps 1 and 2 of R307 on the byte string of the descriptor list. -/
def parseImage (str : List Byte) : Except LoadFail Img :=
  let len := leAt str 16 8
  let head := str.take 28 ++ List.replicate 4 0#8 ++ slice str 32 96
  if str.length < 128 ∨ leAt str 0 4 ≠ 0x4950574C ∨ len < 128 ∨ str.length < len ∨ crc32c head ≠ leAt str 28 4 then .error imageInvalid
  else if leAt str 4 2 ≠ 5 then .error { status := stVersion }
  else match parseBody (str.take len) with
    | some i => .ok i
    | none => .error imageInvalid

/-! ### Step 5: the region and the member rectangles -/

/-- The domain whose rectangles hold a region granule. -/
def Img.domOf (i : Img) (gx gy : Nat) : Option Nat :=
  (List.range i.doms.length).find? (fun d => ((i.doms[d]?).map (fun r => r.rects.any (fun q =>
    decide (q.1 ≤ gx) && decide (gx < q.1 + q.2.2.1) && decide (q.2.1 ≤ gy) && decide (gy < q.2.1 + q.2.2.2)))).getD false)

/-- All member rectangles of the image. -/
def Img.allRects (i : Img) : List (Nat × Nat × Nat × Nat) := i.doms.flatMap ImgDom.rects

/-- Are rectangles a and b disjoint? -/
def rectsApart (a b : Nat × Nat × Nat × Nat) : Bool :=
  decide (a.1 + a.2.2.1 ≤ b.1) || decide (b.1 + b.2.2.1 ≤ a.1) || decide (a.2.1 + a.2.2.2 ≤ b.2.1) || decide (b.2.1 + b.2.2.2 ≤ a.2.1)

def pairwiseApart : List (Nat × Nat × Nat × Nat) → Bool
  | [] => true
  | a :: r => r.all (rectsApart a) && pairwiseApart r

def Img.checkRegion (i : Img) (w h : Nat) : Option LoadFail :=
  if w < i.rw ∨ h < i.rh then
    some { status := stDoesNotFit, fit := fitReport 3 0 i.rw i.rh 0 (w + 65536 * h) (i.rw * i.rh) (w * h) }
  else if !i.allRects.all (fun q => decide (q.1 + q.2.2.1 ≤ i.rw) && decide (q.2.1 + q.2.2.2 ≤ i.rh)) ∨ !pairwiseApart i.allRects ∨
      !i.tiles.all (fun t => !t.runs || i.domOf (t.x / 4) (t.y / 4) == some t.dom) then some imageInvalid
  else none

/-! ### Step 6: route, stream, shard and group records -/

/-- Is a route entry well formed on a router whose open mesh ports are `open_` (R188, R189)? -/
def rteOk (open_ : BitVec 4) (x : BitVec 128) : Bool :=
  let e := x.toNat
  let in_ := bits e 20 5
  let out := bits e 25 6
  let outs := (List.range 6).countP (fun i => bit out i)
  let ssq := bit e 7
  let mode := bit e 3
  let fields := bits e 32 56
  let eData := bits e 88 16
  !bit e 0 || (bits e 31 1 == 0 && bits e 104 24 == 0 && in_ != 0 &&
    (match bits e 1 2 with
     | 0 => outs == 1 && !mode && !ssq && fields == 0 && eData == 0
     | 1 => decide (1 ≤ outs) && !(bit out 0 && bit out 5) && !mode && !ssq && fields == 0 && eData == 0
     | 2 => outs == 1 && (if ssq then (bit out 0 || bit out 5) && decide (1 ≤ bits e 48 16) else fields == 0) && ((ssq && mode) || eData == 0)
     | _ => false) &&
    (List.range 4).all (fun d => !bit out (d + 1) || (!bit in_ (d + 1) && open_.getLsbD d)))

/-- Does a stream entry's own content meet the limits of R214, R328 and R410? -/
def wstOk (ndom : Nat) (x : BitVec 256) : Bool :=
  let e := x.toNat
  let kind := wstKind x
  let ty := bits (wstPep x) 8 2
  let port := bits (wstPep x) 0 8
  let slots := (wstLsize x - 1) / ringStride x
  bits e 192 64 == 0 && (!wstValid x || (
    (kind == 1 || !wstAcc x) && (kind == 1 || kind == 2 || wstCh x == 0) && (decide (kind ≤ 1) || wstCch x == 0) &&
    decide (1 ≤ wstLsize x) && decide (wstLsize x ≤ 2 ^ 24) && decide (wstXmode x ≤ 4) && (decide (wstXmode x < 3) || wstXblk x != 3) &&
    !(wstTable x && wstXint8 x) &&
    (decide (kind ≤ 1) || (match ty with
      | 0 => decide (port < 48) && decide (bits e 154 2 < ndom) &&
          (if kind = 2 then bits e 156 8 == 0
           else decide (1 ≤ bits e 156 8) && decide (1 ≤ bits e 177 13) && decide ((bits e 156 8 + 1) * bits e 177 13 ≤ 8192))
      | 1 => decide (port < 8) && wstXmode x == 0 && !wstBasin x &&
          (match lpRole x with
           | 2 => kind == 2 && lpAdmit x == 0 && lpTmax x == 0 && lpTshift x == 0 && lpQmax x == 0
           | 3 => false
           | r => kind == 3 && decide (1 ≤ lpTmax x) && decide (lpTshift x ≤ 12) && decide (1 ≤ slots) && decide (slots ≤ 65535) &&
               (if r = 1 then decide (1 ≤ lpQmax x) && decide (lpQmax x ≤ 23) else lpQmax x == 0))
      | 2 => decide (port < 8)
      | _ => false))))

/-- Channels that a stream entry uses (R214). -/
def wstChannels (x : BitVec 256) : List Nat :=
  if !wstValid x then [] else match wstKind x with
    | 0 => [wstCch x]
    | 1 => [wstCch x, wstCh x]
    | 2 => [wstCh x]
    | _ => []

/-- Does a shard entry meet R249 and R250 in a window of `lines` lines, its lines counted from 0? [DEDUCED: log 120, 121] -/
def shardOk (img : Img) (lines : Nat) (e : Ushd) : Bool :=
  let x := e.toNat
  let g := (img.groups.find? (fun p => p.1 == shGroup e)).map Prod.snd
  let toEnd := shGcol0 e + shCols e == shGcols e
  !shValid e || (bits x 3 1 == 0 && bits x 41 23 == 0 && bits x 195 29 == 0 && bits x 416 96 == 0 &&
    (!shFact e || (!shE e && (match g with
      | some r => grpRule r == 1
      | none => false))) &&
    decide (shDomctx e < img.doms.length) && decide (1 ≤ shWfmt e) && decide (shWfmt e ≤ 8) && (!shWs e || decide (4 ≤ shWfmt e)) &&
    shBbase e % 64 == 0 && (!shFact e || shFbase e % 64 == 0) && decide (1 ≤ shRows e) && decide (1 ≤ shCols e) &&
    decide (shGrow0 e + shRows e ≤ shGrows e) && decide (shGcol0 e + shCols e ≤ shGcols e) && decide (shGrows e * shGcols e ≤ 2 ^ 40) &&
    ((shGcol0 e % 32 == 0 && shCols e % 32 == 0) || toEnd) && shNblk e == cdiv (shN e) (shP e) &&
    decide (shBbase e + 64 * shNblk e ≤ lines) && decide (shFbase e * b2n (shFact e) + 64 * factorBlocks e ≤ lines))

/-- Stream records with the replacements of a spill level (R309). -/
def replaceStreams (base repl : List ImgStream) : List ImgStream :=
  base.map (fun a => (repl.find? (fun r => r.gx == a.gx && r.gy == a.gy && r.idx == a.idx)).getD a)

def replaceShards (base repl : List Ushd) : List Ushd := base.map (fun a => (repl.find? (sameBox a)).getD a)

/-- Records in force at a spill level: window lines needed, streams, shard entries. -/
def Img.at_ (i : Img) (level : Nat) : Nat × List ImgStream × List Ushd :=
  match (if level = 0 then none else i.levels[level - 1]?) with
  | none => (i.holdLines, i.streams, i.shards)
  | some l => (l.holdLines, replaceStreams i.streams l.streams, replaceShards i.shards l.shards)

/-- The records of one level meet R214, R249 and R250. -/
def Img.levelOk (i : Img) (level : Nat) : Bool :=
  let (lines, ss, hs) := i.at_ level
  ss.all (fun a => wstOk i.doms.length a.e) && hs.all (shardOk i lines) &&
  ((ss.map (fun a => 32 * a.gy + a.gx)).eraseDups.all (fun g => distinct ((ss.filter (fun a => 32 * a.gy + a.gx == g)).flatMap (fun a => wstChannels a.e))))

/-- The tile record of a region tile. -/
def Img.tileAt (i : Img) (x y : Nat) : Option ImgTile := if x < 4 * i.rw then i.tiles[4 * i.rw * y + x]? else none

/-- Step 6 of R307; `open_` gives the open mesh ports of the router of a region tile. -/
def Img.checkTables (i : Img) (open_ : Nat → Nat → BitVec 4) : Option LoadFail :=
  let inRect (gx gy : Nat) : Bool := decide (gx < i.rw) && decide (gy < i.rh)
  let runs (x y : Nat) : Bool := ((i.tileAt x y).map ImgTile.runs).getD false
  let places := (i.routes.map (fun r => (r.1, r.2.1))).eraseDups
  let ok :=
    i.syncs.all (fun g => runs g.1 g.2.1) && i.routes.all (fun r => runs r.1 r.2.1 && rteOk (open_ r.1 r.2.1) r.2.2) &&
    places.all (fun p =>
      let es := (i.routes.filter (fun r => r.1 == p.1 && r.2.1 == p.2)).map (fun r => r.2.2.toNat)
      decide (es.length ≤ 512) && distinct ((es.filter (fun e => bit e 0)).map (fun e => bits e 8 12))) &&
    i.streams.all (fun a => inRect a.gx a.gy && decide (a.idx < 64)) && distinct (i.streams.map (fun a => 64 * (32 * a.gy + a.gx) + a.idx)) &&
    i.repl.all (fun r => r.2.all (fun g => inRect g.1 g.2)) &&
    (List.range (i.levels.length + 1)).all i.levelOk &&
    i.groups.all (fun g => decide (g.1 < 64) && groupOk g.2) && distinct (i.groups.map Prod.fst)
  if ok then none else some imageInvalid

/-! ### Step 7: tiles -/

/-- A list of initial ranges at `off` of BODIES: none where it runs out of the section. -/
def parseRanges (b : List Byte) : Nat → Nat → Option (List (Nat × List Byte))
  | 0, _ => none
  | n + 1, off =>
    let len := leAt b (off + 4) 4
    if b.length < off + 8 then none
    else if len = 0 then some []
    else if b.length < off + 8 + len then none
    else (parseRanges b n (off + 8 + 8 * cdiv len 8)).map (fun r => (leAt b off 4, slice b (off + 8) len) :: r)

/-- The fill and initial ranges of a tile: none where they do not lie wholly inside BODIES. -/
def Img.bodyOf (i : Img) (t : ImgTile) : Option (List Word × List (Nat × List Byte)) :=
  let b := i.bodies
  let endFill := t.body + 4 * t.nfill
  if b.length < endFill then none
  else match parseRanges b (b.length + 1) endFill, (if t.data = noBody then some [] else parseRanges b (b.length + 1) t.data) with
    | some a, some d => some ((List.range t.nfill).map (fun k => BitVec.ofNat 32 (leAt b (t.body + 4 * k) 4)), a ++ d)
    | _, _ => none

def Img.checkTile (i : Img) (t : ImgTile) : Option LoadFail :=
  if 4194304 < t.planEnd then some { status := stDoesNotFit, fit := fitReport 1 0 t.x t.y 0 0 t.planEnd 4194304 }
  else if 4096 < t.nfill then some { status := stDoesNotFit, fit := fitReport 2 0 t.x t.y 0 0 t.nfill 4096 }
  else if !t.runs then none
  else match i.bodyOf t with
    | none => some imageInvalid
    | some (_, rs) => if rs.all (fun r => decide (r.1 + r.2.length ≤ t.planEnd)) then none else some imageInvalid

def Img.checkTiles (i : Img) : Option LoadFail := i.tiles.findSome? i.checkTile

end Sys2Proof.Machine
end

