-- ==== Sys2Proof/Machine/Page.lean ====
section
/-! DEFINITION. What a host reads in a function's BARs: the mailbox page (R378, R380, R382), the capability list (R397, R398) and
the MSI-X table. A read changes nothing, so these are functions of the state and no command. -/

namespace Sys2Proof.Machine

/-! ### The mailbox page (R380) -/

def LkState.code : LkState → Nat
  | .booting => 0
  | .ready => 1
  | .restarting => 2
  | .failed => 3

/-- MBX_CTRL. -/
def Fn.mbxCtrl (x : Fn) : Nat := pack [(0, 1, b2n x.irqRsp), (1, 1, b2n x.irqEvt), (16, 16, x.eqHead)]

/-- MBX_STATUS. -/
def State.mbxStatus (s : State) (f : Nat) : Nat :=
  let x := s.fn f
  pack [(0, 1, b2n x.rspValid), (1, 1, b2n x.busy), (2, 2, s.lk.state.code), (4, 1, b2n x.version.isSome),
    (5, 1, b2n x.doorbellDropped), (6, 1, b2n x.writeDropped), (7, 1, b2n x.eqOverflow)]

/-- The 4 KiB mailbox page as a number; MBX_DOORBELL reads as zero. -/
def State.mailboxPage (s : State) (f : Nat) : Nat :=
  let x := s.fn f
  packLE [(0x000, 8, x.mbxCtrl), (0x008, 8, s.mbxStatus f), (0x018, 8, x.seq.toNat), (0x100, 256, x.cmd.toNat), (0x200, 256, x.rsp.toNat)]

/-! ### The capability list (R397, R398) -/

/-- A capability record: its identifier, version, length in 8 B units, and body fields from the header (byte, length, value). -/
structure CapRec where
  id : Nat
  version : Nat
  len : Nat
  body : List (Nat × Nat × Nat)

/-- A link version as the records encode it: major in [7:4], minor in [3:0]. -/
def linkVersion (q : GPort) : Nat := if q.state = .up then 16 * q.vmajor + q.vminor else 0

/-- Usable spare granules: those of the spare rows that are not UNUSABLE. [DEDUCED: log 170] -/
def State.usableSpares (s : State) : Nat :=
  (List.range numGranules).countP (fun g => decide (s.spareRow ≤ g / 32) && s.gran g != .unusable)

/-- The records that identify the device and the function. -/
def State.capIdentity (s : State) (f : Nat) : List CapRec :=
  let ten := fnTenant f
  [⟨0x0000, 1, 2, [(8, 4, (s.fn f).capgen), (12, 4, 14)]⟩,
   ⟨0x0001, 1, 6, [(8, 8, Config.serial.toNat), (16, 1, b2n s.orderedS), (17, 1, b2n s.gradeS), (18, 1, Config.stepping.toNat),
      (20, 1, 32), (21, 1, s.gridRows), (22, 2, 0x0402), (24, 4, (s.boot.running.map Running.svn).getD 0), (28, 1, s.detoured.length),
      (29, 1, s.nv.fuses)]⟩,
   ⟨0x0002, 1, 3, [(8, 1, 0), (9, 1, 2), (10, 1, 4), (11, 1, 3), (12, 1, 16), (14, 2, 256), (16, 4, 65536)]⟩,
   ⟨0x0003, 1, 2, [(8, 2, fnNum f), (10, 1, fnPort f), (11, 1, ten.getD 0xFF),
      (12, 1, (ten.map (fun n => match (s.tenant n).st with
        | .free => 0
        | .settingUp => 1
        | .active => 2
        | .resetting => 3
        | .releasing => 4)).getD 0), (13, 1, (ten.map (fun n => b2n (s.tenant n).debug)).getD 0)]⟩]

/-- The records of what the device can do. -/
def State.capAbilities (s : State) (f : Nat) : List CapRec :=
  let ten := fnTenant f
  let of (g : Tenant → Nat) : Nat := (ten.map (fun n => g (s.tenant n))).getD 0
  [⟨0x0010, 5, 1, []⟩, ⟨0x0011, 2, 2, [(8, 1, 2), (9, 1, 0), (10, 1, 1), (11, 1, 0)]⟩, ⟨0x0012, 0x21, 2, [(8, 1, 0x10), (9, 1, 0x21)]⟩,
   ⟨0x0013, 1, 2, [(8, 2, 0x07FF), (10, 1, 0x1F)]⟩, ⟨0x0014, 1, 2, [(8, 1, 0x07), (9, 1, 0x03), (10, 1, 0x0F)]⟩, ⟨0x0015, 1, 1, []⟩,
   ⟨0x0020, 1, 4, (List.range 8).map (fun b => (8 + b, 1, linkVersion (s.port (48 + b)))) ++
      [(16, 4, s.fabric.basinBound), (20, 4, of Tenant.basinGib)]⟩,
   ⟨0x0021, 1, 2, [(8, 1, pack ((List.range 8).map (fun l => (l, 1, b2n (Tbl.get {} s.loops l : LoopPort).up)))), (10, 2, of Tenant.loopQp)]⟩,
   ⟨0x0030, 1, 2, [(8, 1, s.detoured.length), (9, 1, 8), (10, 1, s.usableSpares), (11, 1, s.freePaths.length)]⟩,
   ⟨0x0100, min (of Tenant.canal) 255, 2, [(8, 2, of Tenant.canal)]⟩]

/-- The capability list of a function: each function sees its own. -/
def State.capRecords (s : State) (f : Nat) : List CapRec := s.capIdentity f ++ s.capAbilities f

/-- The records laid out from offset `at_` on, with their headers; NEXT of the last is 0. -/
def capLayout (at_ : Nat) : List CapRec → List (Nat × Nat × Nat)
  | [] => []
  | r :: rest =>
    let next := if rest.isEmpty then 0 else at_ + 8 * r.len
    (at_, 8, pack [(0, 16, r.id), (16, 8, r.version), (24, 8, r.len), (32, 16, next)]) ::
      r.body.map (fun p => (at_ + p.1, p.2)) ++ capLayout (at_ + 8 * r.len) rest

/-- The capability list as a number. -/
def State.capList (s : State) (f : Nat) : Nat := packLE (capLayout 0 (s.capRecords f))

/-- Version of a capability record in the list of tenant `n`'s functions (R398, R399). -/
def State.capVersion (s : State) (n id : Nat) : Option Nat :=
  ((s.capRecords (fnOf 0 (n + 1))).find? (fun r => r.id == id)).map CapRec.version

/-! ### Reads (R378, R382) -/

/-- A read of BAR0: naturally aligned, of 4 or 8 bytes; any other access, and an offset not listed, reads as zero. -/
def State.bar0Read (s : State) (f off size : Nat) : Nat :=
  if !s.fnExists f || !barAccess off size then 0
  else if off < 0x1000 then fieldLE (s.mailboxPage f) off size
  else fieldLE (s.capList f) (off - 0x1000) size

/-- A read of BAR2: the MSI-X table of two entries at 0x000 and the pending bits at 0x800. [PRESUMED: log 171] -/
def State.bar2Read (s : State) (f off size : Nat) : Nat :=
  if !s.fnExists f || !(size == 4 || size == 8) || off % size != 0 then 0
  else
    let x := s.fn f
    let entry (e : MsixEntry) : Nat := packLE [(0, 8, e.addr.toNat), (8, 4, e.data.toNat), (12, 4, b2n e.masked)]
    fieldLE (packLE [(0, 16, entry x.vec0), (16, 16, entry x.vec1), (0x800, 8, x.pba.toNat)]) off size

end Sys2Proof.Machine
end

