-- ==== Sys2Proof/Machine/Load.lean ====
section
/-! DEFINITION. The loader: checks against the device, fit of the Hold, patching and writing, and the LOAD command
(11_program_contract.md, R303 to R313; R279, R439). -/

namespace Sys2Proof.Machine

/-! ### Checks that need the device (R307 steps 3, 4, 8 to 11) -/

/-- [DEDUCED: log 124] -/
def State.checkCaps (s : State) (n : Nat) (i : Img) : Option LoadFail :=
  if i.caps.all (fun r => match s.capVersion n r.1 with
    | some v => decide (r.2 ≤ v)
    | none => false) then none else some { status := stNoCap }

/-- The contexts of a tenant. -/
def ctxsOf (n : Nat) : List Nat := (List.range 4).map (fun k => 4 * n + k)

/-- The contexts that a load may assign: those of the previous load, and those that no load holds (R303). -/
def State.freeCtxs (s : State) (n : Nat) : List Nat := (ctxsOf n).filter (fun c => (s.ctx c).loaded || (s.ctx c).state == .stopped)

def State.checkCtxs (s : State) (n : Nat) (i : Img) : Option LoadFail :=
  if (ctxsOf n).any (fun c => (s.ctx c).loaded && (s.ctx c).state != .stopped && (s.ctx c).state != .aborted) then some { status := stNeedsQuiesce }
  else if (s.freeCtxs n).length < i.doms.length then some { status := stNoResource }
  else none

/-- The virtual granule of a region granule of tenant `n` (R304). -/
def State.regionGran (s : State) (n gx gy : Nat) : Nat := 32 * ((s.tenant n).oy + gy) + (s.tenant n).ox + gx
/-- The physical tile of a region tile (R304). -/
def State.regionTile (s : State) (n x y : Nat) : Nat := tileAt (s.physGran (s.regionGran n (x / 4) (y / 4))) (4 * (y % 4) + x % 4)

/-- A patched line that overflows its field, or a circuit beyond the domain's range, stops the load (R305, R328). -/
def State.baseLine (s : State) (n : Nat) : Nat := (s.tenant n).baseGib * 2 ^ 24

def State.linesFit (s : State) (n : Nat) (i : Img) : Bool :=
  let b := s.baseLine n
  let all := i.streams ++ i.levels.flatMap ImgLevel.streams
  all.all (fun a => !wstValid a.e || wstBasin a.e ||
    (decide (wstLbase a.e + b + (if a.view then 28 * 2 ^ 30 else 0) < 2 ^ 35) && decide (wstRbase a.e + b < 2 ^ 35)))

/-- The grants that the image's domains take: domains with Giore port streams first, each group in order, on the tenant's
grants in ascending domain identifier. [DESIGN CHOICE: log 123] -/
def State.grantsOf (s : State) (n : Nat) (i : Img) : List (Nat × Grant) :=
  let port (d : Nat) : Bool := i.streams.any (fun a => wstValid a.e && decide (2 ≤ wstKind a.e) && bits (wstPep a.e) 8 2 == 0 && bits a.e.toNat 154 2 == d)
  let ds := List.range i.doms.length
  ((ds.filter port) ++ (ds.filter (fun d => !port d))).zip ((s.fabric.grants.filter (fun g => g.2.tenant == n && !g.2.relay)).map Prod.snd)

def State.grantFor (s : State) (n : Nat) (i : Img) (d : Nat) : Option Grant := ((s.grantsOf n i).find? (fun p => p.1 == d)).map Prod.snd

/-- Does every circuit of the image lie in its domain's range on the trunk (R328)? -/
def State.circuitsFit (s : State) (n : Nat) (i : Img) : Bool :=
  (i.streams ++ i.levels.flatMap ImgLevel.streams).all (fun a =>
    !(wstValid a.e && decide (2 ≤ wstKind a.e) && bits (wstPep a.e) 8 2 == 0) ||
      (match s.grantFor n i (bits a.e.toNat 154 2) with
       | some g => decide (bits a.e.toNat 142 12 < (g.trunks.getD (bits (wstPep a.e) 0 8 / 8) (0, 0, 0)).2.2)
       | none => false))

/-- Step 8: sync objects on each die, in row-major region order, then shard entries and circuits. -/
def State.checkSyncs (s : State) (n : Nat) (i : Img) : Option LoadFail :=
  let step (acc : Tbl Nat × Option LoadFail) (g : Nat × Nat × List (Nat × Nat)) : Tbl Nat × Option LoadFail :=
    match acc.2 with
    | some _ => acc
    | none =>
      let d := dieOf (s.regionTile n g.1 g.2.1)
      let left := match acc.1.find d with
        | some x => x
        | none => (s.quotaObjects n d).length
      if left < g.2.2.length then (acc.1, some { status := stNoResource, fit := fitReport 7 0 g.1 g.2.1 0 0 g.2.2.length left })
      else (acc.1.set d (left - g.2.2.length), none)
  let r := (i.syncs.foldl step ([], none)).2
  let shards := i.shards.countP shValid
  if r.isSome then r
  else if (s.tenant n).shard < shards then some { status := stNoResource, fit := fitReport 8 0 0 0 0 0 shards (s.tenant n).shard }
  else if !s.circuitsFit n i then some { status := stNoResource }
  else none

/-- Step 9: the spill level to use (R310); a tenant without Basin slots loads no image that reads the Basin (R359). -/
def State.fitHold (s : State) (n : Nat) (i : Img) : Except LoadFail Nat :=
  let ten := s.tenant n
  let h := ten.sizeGib * 2 ^ 24
  let attached := (List.range 8).filter (fun b => s.basinLive b)
  let holdFail (j need : Nat) : LoadFail := { status := stDoesNotFit, fit := fitReport 4 j 0 0 0 0 (64 * need) (64 * h) }
  let needsBasin (a : ImgStream) : Bool := wstValid a.e && wstBasin a.e
  if i.holdLines ≤ h then (if ten.basin = 0 ∧ i.streams.any needsBasin then .error { status := stNoCap } else .ok 0)
  else if !i.spillOk then .error (holdFail 0 i.holdLines)
  else match (List.range i.levels.length).find? (fun j => ((i.levels[j]?).map (fun l => decide (l.holdLines ≤ h))).getD false) with
    | none => .error (holdFail i.levels.length ((i.levels.getLast?.map ImgLevel.holdLines).getD i.holdLines))
    | some j =>
      match i.levels[j]? with
      | none => .error (holdFail 0 i.holdLines)
      | some l =>
        if attached.isEmpty then .error (holdFail (j + 1) l.holdLines)
        else if ten.basin = 0 then .error { status := stNoCap }
        else if ten.basinGib * 2 ^ 24 < l.basinLines then
          .error { status := stDoesNotFit, fit := fitReport 5 (j + 1) 0 0 0 0 (64 * l.basinLines) (ten.basinGib * 2 ^ 30) }
        else if !l.frozen && attached.any (fun b => (s.port (48 + b)).vmajor == 1) then .error { status := stNoCap }
        else if l.lbound < s.fabric.basinBound then .error { status := stNoCap }
        else .ok (j + 1)

/-- A shard entry as written: lines shifted to the window, DOMCTX the assigned context (R305). -/
def patchShard (b : Nat) (ctxs : List Nat) (e : Ushd) : Ushd :=
  let x := setBits e.toNat 96 35 (shBbase e + b)
  let x := setBits x 160 35 (shFbase e + b)
  BitVec.ofNat 512 (setBits x 10 2 (ctxs.getD (shDomctx e) 0))

/-- Statistic lines of a factored shard that the blocks on HUU `h` need: the header line, and 16 rows or columns a line (R248, R270). -/
def factorLinesOn (h : Nat) (e : Ushd) : List (Nat × Nat) :=
  let bs := (List.range (shNblk e)).filter (fun k => stackOf (shBbase e + 64 * k) == h)
  let ps := bs.flatMap (fun k => (List.range (shP e)).filterMap (fun p => paramAt e k p))
  if ps.isEmpty then [] else ((0, 0) :: ps.flatMap (fun rc => [(1, rc.1 / 16), (2, rc.2 / 16)])).eraseDups

/-- Where the factor lines of one domain's sweep go beyond the buffer of HUU `h`: the place of the tensor in the table, and the
lines that the sweep needs (R270). `facts` are the factored shards with their places. -/
def factorBeyond (facts : List (Ushd × Nat)) (d h : Nat) : Option (Nat × Nat) :=
  let counts := (facts.filter (fun e => shDomctx e.1 == d)).map (fun e => (e.2, (factorLinesOn h e.1).length))
  let upTo (k : Nat) : Nat := ((counts.take (k + 1)).map Prod.snd).sum
  ((List.range counts.length).find? (fun k => decide (8192 < upTo k))).map (fun k => ((counts.getD k (0, 0)).1, (counts.map Prod.snd).sum))

/-- Step 10: the factor lines of each HUU's sweep, domain by domain; the first tensor in shard-table order that overflows the
buffer of any HUU is reported (R270, R308). -/
def checkFactors (hs : List Ushd) : Option LoadFail :=
  let facts := (hs.zip (List.range hs.length)).filter (fun e => shValid e.1 && shFact e.1)
  let all := if facts.isEmpty then [] else (List.range 4).flatMap (fun d => (List.range 32).filterMap (factorBeyond facts d))
  (all.foldl (fun (best : Option (Nat × Nat)) r => match best with
    | some b => if r.1 < b.1 then some r else some b
    | none => some r) none).map (fun r =>
      { status := stDoesNotFit, fit := fitReport 6 0 0 0 (shTid (hs.getD r.1 0#512)) 0 (64 * r.2) 524288 })

/-- The period that a spill level proves for a domain; at level 0 the domain record's own (R310). -/
def Img.proved (i : Img) (level d : Nat) : Nat :=
  if level = 0 then ((i.doms[d]?).map ImgDom.pProved).getD 0 else ((i.levels[level - 1]?).map (fun l => l.p.getD d 0)).getD 0

/-- Step 11: the periods of Timed domains, and O on one device. -/
def State.checkPeriods (s : State) (n : Nat) (i : Img) (level : Nat) : Option LoadFail :=
  if (List.range i.doms.length).all (fun d => match i.doms[d]? with
    | none => true
    | some r => r.elastic || (decide (r.pProved ≤ r.period) && decide (i.proved level d ≤ max r.period (i.proved level d)) &&
        decide (250 ≤ r.period) && decide (r.period ≤ 1000000000) && ((s.grantFor n i d).isSome || decide (88 ≤ r.oAssumed)))) then none
  else some { status := stDenied, detail := 4096 * 3 }

/-- Steps 3 to 11 of R307 in order; the spill level where all pass. [DEDUCED: log 122] -/
def State.loadChecks (s : State) (n : Nat) (i : Img) : Except LoadFail Nat :=
  let ten := s.tenant n
  let early := (((s.checkCaps n i).or (s.checkCtxs n i)).or (i.checkRegion ten.width ten.height)).or
    ((i.checkTables (fun x y => s.openMaskOf (s.regionTile n x y))).or
      ((if s.linesFit n i then none else some imageInvalid).or (i.checkTiles.or (s.checkSyncs n i))))
  match early with
  | some e => .error e
  | none =>
    match s.fitHold n i with
    | .error e => .error e
    | .ok level =>
      match (checkFactors ((i.at_ level).2.2.map (patchShard (s.baseLine n) [0, 1, 2, 3]))).or (s.checkPeriods n i level) with
      | some e => .error e
      | none => .ok level

/-! ### Writing (R303 to R306, R313) -/

/-- A context as a load finds it: STOPPED with every register at its reset value but the step counts and a marked seed (R303). -/
def Ctx.fresh (cx : Ctx) (lend : Nat) : Ctx :=
  { Ctx.reset with
    upd := { ustep := cx.upd.ustep, uskip := cx.upd.uskip }, lendDefault := lend, seedMarked := cx.seedMarked
    k0 := if cx.seedMarked then cx.k0 else 0, k1 := if cx.seedMarked then cx.k1 else 0 }

/-- The set staged on a context that a load assigns or frees is discarded; its command ends with ABORTED (R64). -/
def State.discardStaged (s : State) (c : Nat) : State :=
  match (s.ctx c).staged with
  | some g => (s.settle g.fn g.slot stAborted 0 0 0 0).modCtx c (fun cx => { cx with staged := none })
  | none => s

/-- The region holds no program: its contexts stopped, its tiles idle, its routers and wharves without entries.
[DEDUCED: log 126] -/
def State.unload (s : State) (n : Nat) : State :=
  let gs := ((s.tenant n).grans.map s.physGran)
  let ts := gs.flatMap granTiles
  let lend := Profile.lend s.boot.profile
  let s := (ctxsOf n).foldl (fun (s : State) c =>
    if (s.ctx c).loaded then ((s.discardStaged c).freePairs c).modCtx c (fun cx => cx.fresh lend) else s) s
  let s := ts.foldl (fun (s : State) t =>
    let tl := s.tile t
    let s := s.setTile t { Tile.reset with mem := tl.mem, chk := tl.chk, vx := tl.vx, vy := tl.vy, brk := tl.brk, lock := { acct := tl.lock.acct } }
    let s := s.rewindRouter t
    let r := s.router t
    s.setRouter t { r with routes := [], fence := 0, miss := 0, mismatch := 0 }) s
  let shards := (s.ushd.filter (fun p => s.shardCtx p.1 / 4 == n)).map Prod.fst
  { s with
    wharves := s.wharves.filter (fun p => !gs.contains p.1), egress := s.egress.filter (fun p => !gs.contains p.1)
    streams := s.streams.filter (fun p => !gs.contains (p.1 / 64)), mons := s.mons.filter (fun p => !gs.contains (p.1 / 16))
    loads := s.loads.del n, ushd := s.ushd.filter (fun p => !shards.contains p.1), ugrp := s.ugrp.filter (fun p => p.1 / 64 ≠ n)
    fabric := { s.fabric with circuits := s.fabric.circuits.filter (fun e => e.2.ctx / 4 ≠ n) } }

/-- One domain record into its context (R305, R310, R313). -/
def Ctx.take (cx : Ctx) (r : ImgDom) (tclass proved : Nat) (timed : Bool) (pin basin : Bool) (huus : List Nat) (g : Option Grant) : Ctx :=
  let k0 := if cx.seedMarked then cx.k0 else r.k0
  let k1 := if cx.seedMarked then cx.k1 else r.k1
  { cx with
    elastic := !timed, elasticPin := pin, movedElastic := pin, cargoExact := r.exact
    cargoExp := Vector.ofFn (fun k => BitVec.ofNat 16 (bits r.exps (16 * k.val) 16))
    period := if r.elastic then r.period else max r.period proved
    stretchLimit := if r.stretch = 0 then 10000000 else r.stretch
    loaded := true, huus := huus, pProved := proved, oAssumed := r.oAssumed, tclass := tclass
    spans := g.isSome, domainId := (g.map Grant.domainId).getD 0, basinMember := basin
    k0 := k0, k1 := k1, huuK0 := k0, huuK1 := k1
    upd := { cx.upd with n0 := r.n0, lstep := r.lstep, wsweep := r.wsweep, fpass := r.fpass } }

/-- Stacks that hold a block or a factor block of a domain's shards. -/
def shardStacks (hs : List Ushd) (d : Nat) : List Nat :=
  ((hs.filter (fun e => shValid e && shDomctx e == d)).flatMap (fun e =>
    (List.range (shNblk e)).map (fun k => stackOf (shBbase e + 64 * k)) ++ (List.range (factorBlocks e)).map (fun k => stackOf (shFbase e + 64 * k)))).eraseDups

/-- A stream entry as written (R305, R328, R410). -/
def State.patchStream (s : State) (n : Nat) (i : Img) (ctxs : List Nat) (a : ImgStream) : BitVec 256 :=
  let e := a.e.toNat
  let b := s.baseLine n
  let ty := bits (wstPep a.e) 8 2
  let port := bits (wstPep a.e) 0 8
  let e := if wstBasin a.e then e else
    setBits (setBits e 29 35 (wstLbase a.e + b + (if a.view then 28 * 2 ^ 30 else 0))) 97 35 (wstRbase a.e + b)
  let e := if wstKind a.e ≤ 1 then e else
    let ep := if ty = 0 then portEndpoint port else if ty = 1 then loopEndpoint port else basinEndpoint port
    let e := setBits (setBits e 132 10 ep) 190 2 (port % 4)
    if ty ≠ 0 then e else
      let d := bits e 154 2
      let base := ((s.grantFor n i d).map (fun g => (g.trunks.getD (port / 8) (0, 0, 0)).2.1)).getD 0
      setBits (setBits e 142 12 (bits e 142 12 + base)) 154 2 (ctxs.getD d 0)
  BitVec.ofNat 256 (if wstValid a.e then e else a.e.toNat)

/-- The circuit of a Giore port stream, as both I/O dies of its trunk hold it (R327). -/
def State.writeCircuit (s : State) (n : Nat) (i : Img) (ctxs : List Nat) (a : ImgStream) : State :=
  if wstValid a.e && decide (2 ≤ wstKind a.e) && bits (wstPep a.e) 8 2 == 0 then
    let port := bits (wstPep a.e) 0 8
    let e := (s.patchStream n i ctxs a).toNat
    let c := 4 * n + bits e 154 2
    let ci : Circuit := { in_ := wstKind a.e == 3, domain := (s.ctx c).domainId, ctx := c, wharf := s.physGran (s.regionGran n a.gx a.gy)
                          wst := a.idx, port := port }
    { s with fabric := { s.fabric with circuits := s.fabric.circuits.set (4096 * (port / 8) + bits e 142 12) ci } }
  else s

/-- Does a route of the image cross a link that runs on a detour path (R313)? -/
def State.routeDetoured (s : State) (n : Nat) (i : Img) : Bool :=
  i.routes.any (fun r =>
    let e := r.2.2.toNat
    let v := s.regionGran n (r.1 / 4) (r.2.1 / 4)
    let leaves (d : Nat) : Bool := match d with
      | 0 => r.2.1 % 4 == 0
      | 1 => r.1 % 4 == 3
      | 2 => r.2.1 % 4 == 3
      | _ => r.1 % 4 == 0
    bit e 0 && (List.range 4).any (fun d => bit e (26 + d) && leaves d && s.sideMoved v d))

/-- Lowest shard entries that no tenant uses. -/
def State.freeShards (s : State) (k : Nat) : List Nat := ((List.range 16384).filter (fun m => (s.ushd.find m).isNone)).take k

/-- One tile of the image onto its physical tile (R98, R159, R182, R305). -/
def State.writeTile (s : State) (n : Nat) (i : Img) (ctxs : List Nat) (t : ImgTile) : State :=
  if !t.runs then s
  else match i.bodyOf t with
    | none => s
    | some (fill, ranges) =>
      let p := s.regionTile n t.x t.y
      let c := 4 * n + ctxs.getD t.dom 0
      let tl := s.tile p
      let syncs := ((i.syncs.find? (fun g => g.1 == t.x && g.2.1 == t.y)).map (fun g => g.2.2)).getD []
      let im : TileImage := { vx := tl.vx, vy := tl.vy, entry := t.entry, fill := fill, ranges := ranges, syncs := syncs }
      let tl := { tl with home := some c, gen := { keyLo := (s.ctx c).k0, keyHi := (s.ctx c).k1 } }
      let s := s.setTile p (tl.loaded (s.freeObjects n (dieOf p)) im (rangesMem ranges) [])
      let rs := (i.routes.filter (fun r => r.1 == t.x && r.2.1 == t.y && bit r.2.2.toNat 0)).map (fun r => r.2.2)
      s.setRouter p { s.router p with routes := (rs.zip (List.range rs.length)).map (fun q => (q.2, q.1)) }

/-- The tile's part of the replay copy. -/
def State.tileImage (s : State) (n : Nat) (i : Img) (t : ImgTile) : Option TileImage :=
  if !t.runs then none
  else (i.bodyOf t).map (fun b =>
    { vx := 4 * (s.tenant n).ox + t.x, vy := 4 * (s.tenant n).oy + t.y, entry := t.entry, fill := b.1, ranges := b.2
      syncs := ((i.syncs.find? (fun g => g.1 == t.x && g.2.1 == t.y)).map (fun g => g.2.2)).getD [] })

/-- Bytes of a replay copy: fills and initial ranges. [DEDUCED: log 128] -/
def copySize (l : List TileImage) : Nat := (l.map (fun t => 4 * t.fill.length + (t.ranges.map (fun r => r.2.length)).sum)).sum

/-- Writes an image that passed every check, at a spill level; also the domains loaded Elastic (R303 to R306, R313). -/
def State.writeImage (s : State) (n : Nat) (i : Img) (level : Nat) : State × Nat :=
  let ctxs := ((s.freeCtxs n).take i.doms.length).map (fun c => c % 4)
  let s := s.unload n
  let s := ctxs.foldl (fun (s : State) k => s.discardStaged (4 * n + k)) s
  let (_, streams, shards) := i.at_ level
  let hs := (shards.filter shValid).map (patchShard (s.baseLine n) ctxs)
  let moved := i.tclass == 0 && (((List.range i.rh).any (fun gy => (List.range i.rw).any (fun gx =>
    (s.subst.find (s.regionGran n gx gy)).isSome))) || s.routeDetoured n i)
  let basin := decide (0 < level) && !(((i.levels[level - 1]?).map ImgLevel.frozen).getD true)
  let s := (List.range i.doms.length).foldl (fun (s : State) d => match i.doms[d]? with
    | none => s
    | some r =>
      let k := ctxs.getD d 0
      (s.modCtx (4 * n + k) (fun cx => ({ cx with lendDefault := Profile.lend s.boot.profile } : Ctx).take r i.tclass (i.proved level d) (!r.elastic && !moved) (!r.elastic && moved) basin
        (shardStacks hs k) (s.grantFor n i d))).basinPairs (4 * n + k)) s
  let s := i.tiles.foldl (fun (s : State) t => s.writeTile n i ctxs t) s
  let s := streams.foldl (fun (s : State) a => s.modWharf (s.physGran (s.regionGran n a.gx a.gy)) (fun w =>
    { w with streams := Tbl.put 0#256 w.streams a.idx (s.patchStream n i ctxs a) })) s
  let s := (streams.filter (fun a => wstKind a.e == 2) ++ streams.filter (fun a => wstKind a.e == 3)).foldl (fun (s : State) a => s.writeCircuit n i ctxs a) s
  let s := i.repl.foldl (fun (s : State) r => { s with replSets := s.replSets.set r.1 (r.2.map (fun g => s.physGran (s.regionGran n g.1 g.2))) }) s
  let s := ((s.freeShards hs.length).zip hs).foldl (fun (s : State) p => { s with ushd := s.ushd.set p.1 p.2 }) s
  let s := i.groups.foldl (fun (s : State) g => { s with ugrp := s.ugrp.set (64 * n + g.1) g.2 }) s
  let tis := i.tiles.filterMap (fun t => s.tileImage n i t)
  let used := (s.loads.map (fun p => p.2.copyBytes)).sum
  let fits := decide (used + copySize tis ≤ s.reserveGib * 2 ^ 30)
  let elastic := (List.range i.doms.length).foldl (fun m d => if moved && !(((i.doms[d]?).map ImgDom.elastic).getD true) then m + 2 ^ d else m) 0
  let rec_ : LoadRec := { digest := ofBytesLE (sha384 i.bytes), spill := level, tiles := tis, replayable := fits
                          copyBytes := if fits then copySize tis else 0 }
  (({ s with loads := s.loads.set n rec_ } : State).measureRegion n, elastic)

/-- The result of LOAD where the image was loaded, and its data (R403). [DEDUCED: log 125] -/
def State.loadImage (s : State) (n : Nat) (i : Img) : State × LoadFail × Nat :=
  match s.loadChecks n i with
  | .error e => (s, e, packLE [(56, 32, e.fit)])
  | .ok level =>
    let ctxs := ((s.freeCtxs n).take i.doms.length).map (fun c => c % 4)
    let (s, elastic) := s.writeImage n i level
    (s, { status := stOK }, packLE ([(0, 1, level), (1, 1, elastic)] ++ ((List.range ctxs.length).map (fun k => (4 + k, 1, ctxs.getD k 0))) ++
      [(8, 48, ((s.loads.find n).map LoadRec.digest).getD 0)]))

/-- LOAD: a tenant's region takes an image, or keeps what it held (R298, R303, R307). `basinGib` and `bound` are what the
attached Basins state: the tenant's window and their largest read bound in ns; `hw` is a hardware fault during the writing,
`bus` a completion error on the transfer (R394). [DESIGN CHOICE: log 116, 159] -/
def execLoad (f basinGib bound : Nat) (hw bus : Bool) (s : State) : Out :=
  deferredCmd f 0x0201 s s.descFault (fun c slot s =>
    if bus then s.settle f slot stIntegrity 0 0 88 0 else
    let n := fnNum f - 1
    let s := s.modTenant n (fun t => { t with basinGib := basinGib })
    let s := { s with fabric := { s.fabric with basinBound := bound } }
    match parseImage (s.descBytes c) with
    | .error e => s.settle f slot e.status 0 0 88 0
    | .ok i =>
      let (_, e, data) := s.loadImage n i
      if hw && e.status == stOK then ((s.settle f slot stTenantFault 0 0 88 0).loadImage n i).1.unload n
      else ((s.settle f slot e.status e.detail 0 88 data).loadImage n i).1)

end Sys2Proof.Machine
end

