-- ==== Sys2Proof/Machine/Records.lean ====
section
/-! DEFINITION. Training state in host memory: shard records, EXPORT and IMPORT (R273, R274), the permutation collective
(R275, R276), and UPD_READ. -/

namespace Sys2Proof.Machine

/-! ### A shard's content -/

/-- The content of a shard: weights in binary32, moments as E4M3 codes with one scale per 32, factor statistics. -/
structure ShardBody where
  w : List Nat
  m : List Nat
  ms : List Nat
  u : List Nat
  us : List Nat
  sum : Nat
  rows : List Nat
  cols : List Nat

/-- Byte `i` of line `line` of the update block that holds parameter `p`. -/
def State.blockByte (s : State) (e : Ushd) (p line i : Nat) : Nat := s.hold.readLE (64 * (shBbase e + 64 * (p / shP e) + line) + i) 1

/-- The content of a shard as the Hold keeps it (R246 to R248). -/
def State.readShard (s : State) (e : Ushd) : ShardBody :=
  let ps := List.range (shN e)
  let runs := List.range (cdiv (shN e) 32)
  { w := ps.map (fun p => s.readF32 (shBbase e + 64 * (p / shP e)) (p % shP e))
    m := ps.map (fun p => s.blockByte e p (momentLine e) (p % shP e))
    ms := runs.map (fun k => s.blockByte e (32 * k) (trailerLine e) (32 * k % shP e / 32))
    u := if shE e then ps.map (fun p => s.blockByte e p 54 (p % shP e)) else []
    us := if shE e then runs.map (fun k => s.blockByte e (32 * k) 60 (12 + 32 * k % shP e / 32)) else []
    sum := if shFact e then s.sumStat e else 0
    rows := if shFact e then (List.range (shRows e)).map (s.rowStat e) else []
    cols := if shFact e then (List.range (shCols e)).map (s.colStat e) else [] }

/-- Elements `lo` to `lo + n - 1` of a list, zeros where it is short. -/
def window (l : List Nat) (lo n : Nat) : List Nat := (List.range n).map (fun i => l.getD (lo + i) 0)

/-- One update block written whole, its gradient lines as zero (R246). -/
def State.writeBlock (s : State) (e : Ushd) (b : ShardBody) (k : Nat) (stamp : Word) : State :=
  let base := shBbase e + 64 * k
  let p := shP e
  let ml := masterLines e
  let s := s.writeLines base 64 0 0
  let s := s.writeLines base ml (packElems 32 (window b.w (k * p) p)) stamp
  let s := s.writeLines (base + momentLine e) (p / 64) (packElems 8 (window b.m (k * p) p)) stamp
  let sc := window b.ms (k * p / 32) (p / 32)
  if shE e then
    let s := s.writeLines (base + 54) (p / 64) (packElems 8 (window b.u (k * p) p)) stamp
    s.writeLines (base + 60) 1 (packElems 8 (sc ++ window b.us (k * p / 32) (p / 32))) stamp
  else s.writeLines (base + 63) 1 (packElems 8 sc) stamp

/-- The factor region written whole, its increments as zero (R248). -/
def State.writeFactors (s : State) (e : Ushd) (b : ShardBody) : State :=
  let s := s.writeLines (shFbase e) (64 * factorBlocks e) 0 0
  let s := s.writeLines (shFbase e) 1 b.sum 0
  let put (s : State) (first : Nat) (l : List Nat) : State :=
    (List.range (cdiv l.length 192)).foldl (fun (s : State) k => s.writeLines (factorLine e (first + k)) 12 (packElems 32 (window l (192 * k) 192)) 0) s
  put (put s 1 b.rows) (1 + rowBlocks e) b.cols

/-- A shard's blocks and factor region written whole. -/
def State.writeShard (s : State) (e : Ushd) (b : ShardBody) (stamp : Word) : State :=
  let s := (List.range (shNblk e)).foldl (fun (s : State) k => s.writeBlock e b k stamp) s
  if shFact e then s.writeFactors e b else s

/-- The digest of content under a shard entry (R271). -/
def bodyDigest (e : Ushd) (w : List Nat) : Nat :=
  (w.zip (List.range w.length)).foldl (fun d p => (d + digestTerm (shTid e) (globalIndex e (p.2 / shCols e, p.2 % shCols e)) p.1) % 2 ^ 64) 0

/-! ### Records (R273) -/

/-- A byte string padded with zeros to a multiple of 64. -/
def pad64 (l : List Byte) : List Byte := l ++ List.replicate ((64 - l.length % 64) % 64) 0#8

def elems (n : Nat) (l : List Nat) : List Byte := l.flatMap (bytesLE n)

/-- The body of a record. -/
def ShardBody.bytes (b : ShardBody) (layoutE fact : Bool) : List Byte :=
  pad64 (elems 4 b.w) ++ pad64 (elems 1 (b.m ++ b.ms)) ++ (if layoutE then pad64 (elems 1 (b.u ++ b.us)) else []) ++
  (if fact then pad64 (elems 4 (b.sum :: b.rows ++ b.cols)) else [])

/-- The content of a body over a box of `r` rows and `c` columns; none where the body has another length. -/
def parseBox (r c : Nat) (layoutE fact : Bool) (l : List Byte) : Option ShardBody :=
  let n := r * c
  let up (k : Nat) : Nat := 64 * cdiv k 64
  let o1 := up (4 * n)
  let o2 := o1 + up (n + cdiv n 32)
  let o3 := if layoutE then o2 + up (n + cdiv n 32) else o2
  let o4 := if fact then o3 + up (4 * (1 + r + c)) else o3
  let at_ (o k i : Nat) : Nat := leAt l (o + k * i) k
  if l.length ≠ o4 then none
  else some {
    w := (List.range n).map (at_ 0 4), m := (List.range n).map (at_ o1 1), ms := (List.range (cdiv n 32)).map (at_ (o1 + n) 1)
    u := if layoutE then (List.range n).map (at_ o2 1) else [], us := if layoutE then (List.range (cdiv n 32)).map (at_ (o2 + n) 1) else []
    sum := if fact then at_ o3 4 0 else 0, rows := if fact then (List.range r).map (at_ (o3 + 4) 4) else []
    cols := if fact then (List.range c).map (at_ (o3 + 4 + 4 * r) 4) else [] }

/-- The record of a shard at step `t`: rank 2, the tensor's two-dimensional view (R273). [DEDUCED: log 130] -/
def shardRecord (rule t : Nat) (e : Ushd) (b : ShardBody) : List Byte :=
  let body := b.bytes (shE e) (shFact e)
  bytesLE 256 (packLE [(0, 4, 0x5253574C), (4, 1, 0), (5, 1, 2), (6, 2, 256), (8, 4, shTid e), (12, 1, 2), (13, 1, 1), (14, 1, 5),
    (15, 1, rule), (16, 1, b2n (shE e)), (17, 1, b2n (shFact e)), (18, 2, bits e.toNat 25 16), (24, 8, t), (32, 8, bodyDigest e b.w),
    (40, 8, body.length), (48, 4, crc32c body), (64, 8, shGrows e), (72, 8, shGcols e), (128, 8, shGrow0 e), (136, 8, shGcol0 e),
    (192, 8, shRows e), (200, 8, shCols e)]) ++ body

/-- Does an export read line `r` of an update block: all but its gradient lines (R246, R274)? -/
def exportsLine (e : Ushd) (r : Nat) : Bool := decide (r < masterLines e) || decide (2 * masterLines e ≤ r)

/-- Does a host read of the shard meet a poisoned line, which fails the transfer (R234, R237)? -/
def State.shardPoisoned (s : State) (e : Ushd) : Bool :=
  (List.range (64 * shNblk e)).any (fun i => exportsLine e (i % 64) && s.linePoison (shBbase e + i)) ||
  (List.range (64 * factorBlocks e)).any (fun i => !isIncrement (some (.factor 0 (i / 64) (i % 64))) && s.linePoison (shFbase e + i))

/-- EXPORT: the shards of a STOPPED or HALTED domain, one tensor or all, as records in shard-table order, with the content
that the last C_s committed (R274). `bus` is a completion error on a list or buffer access (R394); a poisoned line fails it
likewise (R234). [DESIGN CHOICE: log 129] -/
def execExportShards (f : Nat) (bus : Bool) (s : State) : Out :=
  ctxDeferred f 0x0302 s
    (fun x c => (s.descFault c).or (if (s.ctx x).state = .stopped ∨ (s.ctx x).state = .halted then none else some (Resp.status_ stNeedsQuiesce)))
    (fun x c k s =>
      let tid := fieldLE c 20 4
      let mine := (s.shardsOf x).filter (fun p => tid == 0xFFFFFFFF || shTid p.2 == tid)
      let out := mine.flatMap (fun p => shardRecord (grpRule (s.group (x / 4) (shGroup p.2))) (s.ctx x).upd.ustep p.2 ((s.committedView x).readShard p.2))
      if bus || mine.any (fun p => s.shardPoisoned p.2) then s.settle f k stIntegrity 0 0 0 0
      else match s.descWrite c out with
        | .error e => s.settle f k stNoResource e 0 0 0
        | .ok s => s.settle f k stOK 0 0 12 (packLE [(0, 4, mine.length), (4, 8, out.length)]))

/-- The view box of a record: rows and columns of the tensor, offset and extent of the box; none where the box is no
rectangle of the view (R249). -/
def recordBox (h : List Byte) : Option (Nat × Nat × Nat × Nat × Nat × Nat) :=
  let rank := leAt h 12 1
  let dim (o i : Nat) : Nat := leAt h (o + 8 * i) 8
  let outer := List.range (rank - 1)
  let prod (o : Nat) : Nat := outer.foldl (fun x i => x * dim o i) 1
  let row := outer.foldl (fun x i => x * dim 64 i + dim 128 i) 0
  let whole (i : Nat) : Bool := dim 128 i == 0 && dim 192 i == dim 64 i
  let rect := outer.any (fun k => outer.all (fun i => (i < k && dim 192 i == 1) || i == k || (k < i && whole i)))
  if rank = 0 ∨ 8 < rank then none
  else if !outer.isEmpty ∧ !rect then none
  else some (prod 64, dim 64 (rank - 1), row, dim 128 (rank - 1), prod 192, dim 192 (rank - 1))

/-- The outcome of one record at the head of a byte string: the state and the bytes after it, or the status that refuses it (R274). -/
def State.importRecord (s : State) (x : Nat) (l : List Byte) : Except Nat (State × List Byte) :=
  let v := (leAt l 5 1, leAt l 4 1)
  let len := leAt l 40 8
  let body := slice l 256 len
  if l.length < 256 ∨ leAt l 0 4 ≠ 0x5253574C then .error stDenied
  else if v ≠ (2, 0) ∧ v ≠ (1, 0) then .error stVersion
  else if l.length < 256 + len ∨ crc32c body ≠ leAt l 48 4 then .error stIntegrity
  else
    let e? := (s.shardsOf x).find? (fun p => shTid p.2 == leAt l 8 4 &&
      recordBox l == some (shGrows p.2, shGcols p.2, shGrow0 p.2, shGcol0 p.2, shRows p.2, shCols p.2))
    match e? with
    | none => .error stDenied
    | some (n, e) =>
      let rule := grpRule (s.group (x / 4) (shGroup e))
      let layoutE := leAt l 16 1 == 1
      let fact := leAt l 17 1 == 1
      if leAt l 6 2 ≠ 256 ∨ leAt l 13 1 ≠ 1 ∨ leAt l 14 1 ≠ 5 ∨ leAt l 15 1 ≠ rule ∨ leAt l 16 1 ≠ b2n (shE e) ∨ leAt l 17 1 ≠ b2n (shFact e) ∨
          (v.1 = 1 ∧ (layoutE ∨ fact)) ∨ !zeroFields l [(20, 4), (52, 12)] then .error stDenied
      else match parseBox (shRows e) (shCols e) layoutE fact body with
        | none => .error stDenied
        | some b =>
          if bodyDigest e b.w ≠ leAt l 32 8 then .error stDigest
          else
            let t := leAt l 24 8
            let s := s.writeShard e b (BitVec.ofNat 32 t)
            let s := s.modCtx x (fun cx =>
              let run := cx.upd.run.map (fun (r : StepRun) => { r with old := r.old.filter (fun q => q.1 ≠ n) })
              let u := { cx.upd with imported := cx.upd.imported.set n t, committed := cx.upd.committed.set n (leAt l 32 8), run := run }
              { cx with upd := if u.importMixed then u else { u with ustep := t } })
            .ok (s, l.drop (256 + len))

/-- Records in turn until one is refused: the state, how many were accepted, and the status of the refused one.
[DEDUCED: log 131] -/
def State.importAll (s : State) (x : Nat) : Nat → List Byte → State × Nat × Option Nat
  | 0, _ => (s, 0, none)
  | k + 1, l =>
    if l.isEmpty then (s, 0, none)
    else match s.importRecord x l with
      | .error st => (s, 0, some st)
      | .ok (s, r) =>
        let (s, n, st) := s.importAll x k r
        (s, n + 1, st)

/-- IMPORT: records into the shards of a STOPPED or HALTED domain; it stops at the first refused (R274). -/
def execImportShards (f : Nat) (bus : Bool) (s : State) : Out :=
  ctxDeferred f 0x0303 s
    (fun x c => (s.descFault c).or (if (s.ctx x).state = .stopped ∨ (s.ctx x).state = .halted then none else some (Resp.status_ stNeedsQuiesce)))
    (fun x c k s =>
      if bus then s.settle f k stIntegrity 0 0 0 0
      else
        let l := s.descBytes c
        let (s, n, st) := s.importAll x (l.length + 1) l
        match st with
        | none => s.settle f k stOK 0 0 8 (packLE [(0, 4, n), (4, 4, 0xFFFFFFFF)])
        | some st => s.settle f k st (if st = stDenied then 4096 * 3 + 0xFFF else 0) 0 8 (packLE [(0, 4, n), (4, 4, n)]))

/-- UPD_READ: the domain update block (09, Domain update registers). -/
def Update.regs (u : Update) : List Nat :=
  [u.uctl, u.usched0, u.usched1, u.ustep, u.uskip.toNat, u.unorm.toNat, u.ulast.toNat, u.ustatus.toNat, u.udigfail.toNat]

def execUpdRead (f : Nat) (s : State) : Out :=
  ctxCmd f 0x0301 s (fun x _ s =>
    (s, Resp.ok 72 (packLE ((List.range 9).map (fun i => (8 * i, 8, (s.ctx x).upd.regs.getD i 0))))))

/-! ### The permutation collective (R275, R276) -/

/-- One entry of a permutation table: a box of a tensor as rows of its two-dimensional view, in the box's row-major order, and
a run of columns. -/
structure PermEntry where
  tid : Nat
  srcDev : Nat
  dstDev : Nat
  srcShd : Nat
  dstShd : Nat
  rows : List Nat
  col : Nat
  cols : Nat
  view : Option (Nat × Nat)              -- rows and columns of the tensor's view, where its shape gave the box its rows
  ok : Bool

/-- Offset and extent of a box in dimension `i`, and its rank: the dimensions before the first of extent 0 (R275). -/
def permOffset (r : List Byte) (i : Nat) : Nat := leAt r (16 + 8 * i) 8
def permExtent (r : List Byte) (i : Nat) : Nat := leAt r (80 + 8 * i) 8
def permRank (r : List Byte) : Nat := ((List.range 8).find? (fun i => permExtent r i == 0)).getD 8

/-- The global shape of a tensor: in each dimension the end of the furthest box that the table moves of it. An entry holds no
shape; the boxes of a whole tensor reach its end in every dimension. [DEDUCED: log 132] -/
def permShape (tab : List (List Byte)) (tid : Nat) : List Nat :=
  let mine := tab.filter (fun r => leAt r 0 4 == tid)
  (List.range 8).map (fun i => (mine.map (fun r => permOffset r i + permExtent r i)).foldl max 0)

/-- Rows of the view that a box takes, in its row-major order: the outer dimensions as (offset, extent, global extent), outermost
first (R137, R249). -/
def viewRows (dims : List (Nat × Nat × Nat)) : List Nat :=
  dims.foldl (fun rows d => rows.flatMap (fun r => (List.range d.2.1).map (fun i => r * d.2.2 + d.1 + i))) [0]

/-- An entry of the table. -/
def parsePerm (tab : List (List Byte)) (r : List Byte) : PermEntry :=
  let f (o n : Nat) := leAt r o n
  let n := permRank r
  let g := permShape tab (f 0 4)
  let outer := (List.range (n - 1)).map (fun i => (permOffset r i, permExtent r i, g.getD i 0))
  { tid := f 0 4, srcDev := f 4 2, dstDev := f 6 2, srcShd := f 8 4, dstShd := f 12 4
    rows := viewRows outer, col := permOffset r (n - 1), cols := permExtent r (n - 1)
    view := if n ≤ 2 then none else some ((outer.map (fun d => d.2.2)).foldl (fun a b => a * b) 1, g.getD (n - 1) 0)
    ok := decide (f 4 2 < 2 ^ 14) && decide (f 6 2 < 2 ^ 14) && leAt r 144 16 == 0 && decide (1 ≤ n) &&
      (tab.filter (fun x => leAt x 0 4 == f 0 4)).all (fun x => permRank x == n) &&
      (List.range (8 - n)).all (fun i => permOffset r (n + i) == 0 && permExtent r (n + i) == 0) }

/-- A permutation: its table, new shard entries and group records, and the CRC of its header. -/
structure Perm where
  entries : List PermEntry
  shards : List Ushd
  groups : List (Nat × List Byte)

/-- [DEDUCED: log 132] -/
def parsePermutation (l : List Byte) : Option Perm :=
  let n := leAt l 0 4
  let tab := slice l 64 (160 * n)
  let o := 64 + 160 * n
  let m := leAt l o 4
  let o2 := o + 4 + 64 * m
  let g := leAt l o2 4
  let grps := recordsOf 1032 (slice l (o2 + 4) (1032 * g))
  if l.length < o2 + 4 + 1032 * g ∨ crc32c tab ≠ leAt l 4 4 ∨ !zeroFields l [(8, 56)] ∨
      grps.any (fun r => leAt r 1 7 != 0 || decide (64 ≤ leAt r 0 1) || !groupOk (r.drop 8)) then none
  else some { entries := (recordsOf 160 tab).map (parsePerm (recordsOf 160 tab))
              shards := (recordsOf 64 (slice l (o + 4) (64 * m))).map (fun r => BitVec.ofNat 512 (ofBytesLE r))
              groups := grps.map (fun r => (leAt r 0 1, r.drop 8)) }

/-- Does a box lie in a shard of its tensor? -/
def PermEntry.inside (p : PermEntry) (e : Ushd) : Bool :=
  shValid e && shTid e == p.tid && p.rows.all (fun r => decide (shGrow0 e ≤ r) && decide (r < shGrow0 e + shRows e)) &&
  p.view.all (fun v => v.1 == shGrows e && v.2 == shGcols e) && decide (shGcol0 e ≤ p.col) && decide (p.col + p.cols ≤ shGcol0 e + shCols e)

/-- Do two boxes overlap? -/
def PermEntry.meets (a b : PermEntry) : Bool :=
  a.rows.any b.rows.contains && decide (a.col < b.col + b.cols) && decide (b.col < a.col + a.cols)

/-- Does entry `k` cover its destination exactly with its siblings: no overlap, and their areas sum to the shard's? -/
def Perm.coverOk (p : Perm) (dev k : Nat) : Bool :=
  let mine := (p.entries.zip (List.range p.entries.length)).filter (fun q => q.1.dstDev == dev && q.1.dstShd == k)
  match p.shards[k]? with
  | none => mine.isEmpty
  | some e =>
    mine.all (fun a => a.1.inside e && mine.all (fun b => a.2 == b.2 || !a.1.meets b.1)) &&
    (mine.map (fun a => a.1.rows.length * a.1.cols)).sum == shN e

/-- The content of box `p` cut out of a shard: elements with the scales of their runs. -/
def cutBox (e : Ushd) (b : ShardBody) (p : PermEntry) : ShardBody :=
  let idx (i : Nat) : Nat := (p.rows.getD (i / p.cols) 0 - shGrow0 e) * shCols e + (p.col - shGcol0 e + i % p.cols)
  let ps := List.range (p.rows.length * p.cols)
  { w := ps.map (fun i => b.w.getD (idx i) 0), m := ps.map (fun i => b.m.getD (idx i) 0), ms := ps.map (fun i => b.ms.getD (idx i / 32) 0)
    u := ps.map (fun i => b.u.getD (idx i) 0), us := ps.map (fun i => b.us.getD (idx i / 32) 0), sum := b.sum
    rows := p.rows.map (fun r => b.rows.getD (r - shGrow0 e) 0), cols := window b.cols (p.col - shGcol0 e) p.cols }

/-- Content in record-body form with its scales spread over the elements. -/
def spreadScales (b : ShardBody) : ShardBody :=
  { b with ms := (List.range b.w.length).map (fun i => b.ms.getD (i / 32) 0), us := (List.range b.w.length).map (fun i => b.us.getD (i / 32) 0) }

/-- The scale of each run of 32 from the scales of its elements: free where they differ (the spec states none). -/
def State.runScales (s : State) (n : Nat) (l : List Nat) : State × List Nat :=
  (List.range (cdiv n 32)).foldl (fun (acc : State × List Nat) k =>
    let run := (l.drop (32 * k)).take 32
    if run.all (fun x => x == run.headD 0) then (acc.1, acc.2 ++ [run.headD 0])
    else
      let (s, v) := acc.1.draw 8
      (s, acc.2 ++ [v.toNat])) (s, [])

/-- A new shard packed from its boxes, each with its spread content (R276 phase 3). -/
def State.packShard (s : State) (e : Ushd) (boxes : List (PermEntry × ShardBody)) : State × ShardBody :=
  let cell (i : Nat) : Option (ShardBody × Nat) :=
    let r := shGrow0 e + i / shCols e
    let c := shGcol0 e + i % shCols e
    (boxes.find? (fun b => b.1.rows.contains r && decide (b.1.col ≤ c) && decide (c < b.1.col + b.1.cols))).map
      (fun b => (b.2, b.1.rows.idxOf r * b.1.cols + (c - b.1.col)))
  let get (sel : ShardBody → List Nat) (i : Nat) : Nat := ((cell i).map (fun p => (sel p.1).getD p.2 0)).getD 0
  let ps := List.range (shN e)
  let rowStat (i : Nat) : Nat := ((boxes.find? (fun b => b.1.rows.contains i)).map (fun b => b.2.rows.getD (b.1.rows.idxOf i) 0)).getD 0
  let colStat (j : Nat) : Nat := ((boxes.find? (fun b => decide (b.1.col ≤ j) && decide (j < b.1.col + b.1.cols))).map (fun b => b.2.cols.getD (j - b.1.col) 0)).getD 0
  let (s, ms) := s.runScales (shN e) (ps.map (get ShardBody.ms))
  let (s, us) := if shE e then s.runScales (shN e) (ps.map (get ShardBody.us)) else (s, [])
  (s, { w := ps.map (get ShardBody.w), m := ps.map (get ShardBody.m), ms := ms, u := if shE e then ps.map (get ShardBody.u) else [], us := us
        sum := (boxes.head?.map (fun b => b.2.sum)).getD 0
        rows := if shFact e then (List.range (shRows e)).map (fun i => rowStat (shGrow0 e + i)) else []
        cols := if shFact e then (List.range (shCols e)).map (fun i => colStat (shGcol0 e + i)) else [] })

/-- An image of nothing but shard entries and group records, for their checks. -/
def Perm.asImg (p : Perm) (n : Nat) : Img :=
  { bytes := [], tclass := 0, spillOk := false, rw := 1, rh := 1, holdLines := 0, caps := [], bodies := [], tiles := [], syncs := [], routes := []
    doms := List.replicate n { elastic := true, exact := false, fpass := false, rects := [], period := 0, pProved := 0, oAssumed := 0, lstep := 0
                               n0 := 0, wsweep := 0, exps := 0, k0 := 0, k1 := 0, stretch := 0 }
    streams := [], shards := p.shards, groups := p.groups, repl := [], levels := [] }

/-- The first entry that phase 1 refuses, or the number of entries where a new shard entry does (R276). -/
def State.permBad (s : State) (x : Nat) (p : Perm) : Option Nat :=
  let dev := s.fabric.devid
  let old := s.shardsOf x
  let bad (q : PermEntry) : Bool :=
    !q.ok || (q.srcDev == dev && !(match old.find? (fun e => e.1 == q.srcShd) with
      | some e => q.inside e.2 && (q.dstDev != dev || (match p.shards[q.dstShd]? with
          | some d => shE d == shE e.2 && shFact d == shFact e.2
          | none => false))
      | none => false)) || (q.dstDev == dev && !p.coverOk dev q.dstShd)
  match (List.range p.entries.length).find? (fun k => ((p.entries[k]?).map bad).getD false) with
  | some k => some k
  | none =>
    let lines := (s.tenant (x / 4)).sizeGib * 2 ^ 24
    if p.shards.all (fun e => shValid e && shDomctx e == x % 4 && shardOk (p.asImg 4) lines e) && (List.range p.shards.length).all (p.coverOk dev)
    then none else some p.entries.length

/-- Bytes of the Hold reserve that the new shards of a permutation stand in while it runs. -/
def Perm.size (p : Perm) : Nat :=
  let up (n : Nat) : Nat := 64 * cdiv n 64
  (p.shards.map (fun e => up (4 * shN e) + up (shN e + cdiv (shN e) 32) * (1 + b2n (shE e)) +
    b2n (shFact e) * up (4 * (1 + shRows e + shCols e)))).sum

/-- Have the reserve and the tenant's quota of shard entries room for a permutation of context `x` (R276)? -/
def State.permRoom (s : State) (x : Nat) (p : Perm) : Bool :=
  let rest := (s.ushd.filter (fun e => s.shardCtx e.1 / 4 == x / 4 && s.shardCtx e.1 != x)).length
  decide (p.size ≤ s.reserveGib * 2 ^ 30 - (s.loads.map (fun q => q.2.copyBytes)).sum) &&
  decide (rest + p.shards.length ≤ (s.tenant (x / 4)).shard)

/-- The content of one entry's box: cut from a shard of this device, or come from another; none where it did not come whole. -/
def State.permContent (s : State) (x : Nat) (p : Perm) (boxes : List (Nat × List Nat)) (q : PermEntry × Nat) : Option ShardBody :=
  if q.1.srcDev = s.fabric.devid then ((s.shardsOf x).find? (fun e => e.1 == q.1.srcShd)).map (fun e => cutBox e.2 ((s.committedView x).readShard e.2) q.1)
  else match p.shards[q.1.dstShd]? with
    | none => none
    | some d => ((boxes.find? (fun b => b.1 == q.2)).bind (fun b =>
        parseBox q.1.rows.length q.1.cols (shE d) (shFact d) (b.2.map (BitVec.ofNat 8)))).map spreadScales

/-- The entries of a permutation whose destination is this device, with their numbers. -/
def State.permMine (s : State) (p : Perm) : List (PermEntry × Nat) :=
  (p.entries.zip (List.range p.entries.length)).filter (fun q => q.1.dstDev == s.fabric.devid)

/-- The new shards packed from their boxes (R276 phase 3). -/
def State.permPack (s : State) (x : Nat) (p : Perm) (boxes : List (Nat × List Nat)) : State × List (Ushd × ShardBody) :=
  (p.shards.zip (List.range p.shards.length)).foldl (fun (acc : State × List (Ushd × ShardBody)) e =>
    let bs := (s.permMine p).filterMap (fun q => if q.1.dstShd = e.2 then (s.permContent x p boxes q).map (fun b => (q.1, b)) else none)
    let (s, b) := acc.1.packShard e.1 bs
    (s, acc.2 ++ [(e.1, b)])) (s, [])

/-- Do the digests of every tensor sum alike before and after, over all members (R276 phase 4)? -/
def State.permAgrees (s : State) (x : Nat) (p : Perm) (new : List (Ushd × ShardBody)) (others : List (Nat × Nat × Nat)) : Bool :=
  let old := s.shardsOf x
  let tids := (old.map (fun e => shTid e.2) ++ p.shards.map shTid ++ others.map Prod.fst).eraseDups
  let sumOld (t : Nat) : Nat := ((old.filter (fun e => shTid e.2 == t)).map (fun e => (s.committedView x).shardDigest e.1)).sum +
    ((others.filter (fun o => o.1 == t)).map (fun o => o.2.1)).sum
  let sumNew (t : Nat) : Nat := ((new.filter (fun e => shTid e.1 == t)).map (fun e => bodyDigest e.1 e.2.w)).sum +
    ((others.filter (fun o => o.1 == t)).map (fun o => o.2.2)).sum
  tids.all (fun t => sumOld t % 2 ^ 64 == sumNew t % 2 ^ 64)

/-- The new cut takes the place of the old: entries, contents, digests and group records, at the lock at which the domain
stands halted on every member (R276 phase 4). A step between N_s and C_s ends, as the state moved is that of the last C_s.
[DEDUCED: log 132] -/
def State.permCommit (s : State) (x : Nat) (p : Perm) (packed : List (Ushd × ShardBody)) : State :=
  let old := s.shardsOf x
  let s := { s with ushd := s.ushd.filter (fun e => !old.any (fun o => o.1 == e.1)) }
  let s := s.modCtx x (fun cx => { cx with upd := { cx.upd with committed := [], run := none } })
  let b := s.baseLine (x / 4)
  let new := packed.map (fun e => (patchShard b [0, 1, 2, 3] e.1, e.2))
  let s := ((s.freeShards new.length).zip new).foldl (fun (s : State) q =>
    (({ s with ushd := s.ushd.set q.1 q.2.1 }).writeShard q.2.1 q.2.2 (BitVec.ofNat 32 (s.ctx x).upd.ustep)).modCtx x (fun cx =>
      { cx with upd := { cx.upd with committed := cx.upd.committed.set q.1 (bodyDigest q.2.1 q.2.2.w) } })) s
  let s := p.groups.foldl (fun (s : State) g => { s with ugrp := s.ugrp.set (64 * (x / 4) + g.1) g.2 }) s
  s.modCtx x (fun cx => { cx with huus := shardStacks (new.map Prod.fst) (x % 4) })

/-- PERMUTE: the shards of a HALTED domain take a new cut (R275, R276). Of a domain that spans devices, `agree` says whether the
markers of the other members carry the CRC of this table's header; `boxes` are the boxes that came from other devices, by
entry, in record-body form; `others` gives, by tensor, the sums of the other members' old and new digests. -/
def execPermute (f : Nat) (bus agree : Bool) (boxes : List (Nat × List Nat)) (others : List (Nat × Nat × Nat)) (s : State) : Out :=
  ctxDeferred f 0x0304 s
    (fun x c => (s.descFault c).or (if (s.ctx x).state = .halted then none else some (Resp.status_ stNeedsQuiesce)))
    (fun x c k s =>
      let fin (s : State) (status phase bad : Nat) : State := s.settle f k status (if status = stDenied then 4096 * 3 + 0xFFF else 0) 0 8
        (packLE [(0, 4, phase), (4, 4, bad)])
      let none_ := 0xFFFFFFFF
      if bus then fin s stIntegrity 1 none_
      else match parsePermutation (s.descBytes c) with
      | none => fin s stDenied 1 none_
      | some p =>
        match s.permBad x p with
        | some b => fin s stDenied 1 (if b = p.entries.length then none_ else b)
        | none =>
          if (s.ctx x).spans && !agree then fin s stMismatch 1 none_
          else if !s.permRoom x p then fin s stNoResource 1 none_
          else match (s.permMine p).find? (fun q => (s.permContent x p boxes q).isNone) with
            | some q => fin s stIntegrity 2 q.2
            | none =>
              let packed := s.permPack x p boxes
              if !s.permAgrees x p packed.2 others then fin packed.1 stIntegrity 4 none_
              else fin (packed.1.permCommit x p packed.2) stOK 4 none_)

end Sys2Proof.Machine
end

