-- ==== Sys2Proof/Machine/Domains.lean ====
section
/-! DEFINITION. The commands of sync domains and of the fabric (14_mailboxes.md, group 0x04xx): reads and writes of a domain
context, start and formation, staged sets, resume and abort, grants (02_locks.md R58, R64 to R69; 12_multi_device.md R341). -/

namespace Sys2Proof.Machine

/-! ### The domain context registers (02, Domain context) -/

def DomState.code : DomState → Nat
  | .stopped => 0
  | .forming => 1
  | .running => 2
  | .halted => 3
  | .aborted => 4

/-- LKD_CTRL. -/
def Ctx.ctrl (cx : Ctx) : Nat :=
  pack [(0, 1, b2n cx.enable), (1, 1, b2n cx.elastic), (2, 1, b2n cx.cargoExact), (3, 1, b2n cx.elasticPin),
    (16, 16, if cx.identified then cx.domainId else 0)]

/-- LKD_STATUS. -/
def Ctx.status (cx : Ctx) : Nat :=
  pack [(0, 3, cx.state.code), (3, 1, b2n cx.overdue), (4, 1, b2n cx.configMismatch), (5, 1, b2n cx.lateCommit),
    (6, 1, b2n cx.movedElastic), (7, 4, cx.winLow.toNat), (11, 4, cx.winHigh.toNat), (15, 4, cx.nonfinite.toNat)]

/-- The ten registers at 0x000 to 0x048. -/
def Ctx.lkd (cx : Ctx) : List Nat :=
  [cx.ctrl, cx.period, cx.overhead, cx.stretchLimit, cx.index, pack [(0, 16, cx.epoch), (16, 32, cx.digest)],
   (cx.staged.map Staged.digest).getD 0, (cx.staged.map Staged.target).getD 0, cx.cargoExpBits, cx.status]

/-- The stretch counts and times of the six causes, alternating. -/
def Ctx.stretch (cx : Ctx) : List Nat :=
  (List.range 6).flatMap (fun n => [(cx.stretchCount.toList.getD n 0).toNat, (cx.stretchTime.toList.getD n 0).toNat])

/-- LKD_STATUS after a write of `v`: each W1C bit that is written 1 clears (R96). -/
def Ctx.clearStatus (cx : Ctx) (v : Nat) : Ctx :=
  { cx with overdue := cx.overdue && !bit v 3, configMismatch := cx.configMismatch && !bit v 4, lateCommit := cx.lateCommit && !bit v 5
            movedElastic := cx.movedElastic && !bit v 6, winLow := cx.winLow &&& ~~~ BitVec.ofNat 4 (bits v 7 4)
            winHigh := cx.winHigh &&& ~~~ BitVec.ofNat 4 (bits v 11 4), nonfinite := cx.nonfinite &&& ~~~ BitVec.ofNat 4 (bits v 15 4) }

/-- DOMAIN_READ: the context's registers (R403). -/
def execDomainRead (f : Nat) (s : State) : Out :=
  ctxCmd f 0x0401 s (fun x _ s =>
    let l := (s.ctx x).lkd ++ (s.ctx x).stretch
    (s, Resp.ok 176 (packLE ((l.zip (List.range l.length)).map (fun p => (8 * p.2, 8, p.1))))))

/-- DOMAIN_WRITE: W1C bits of LKD_STATUS at any time; the RW registers of a STOPPED context (02, Domain context; R313).
[DEDUCED: log 134] -/
def execDomainWrite (f : Nat) (s : State) : Out :=
  ctxCmd f 0x0402 s (fun x c s =>
    let off := fieldLE c 18 2
    let v := fieldLE c 24 8
    let cx := s.ctx x
    if off = 0x48 then (s.setCtx x (cx.clearStatus v), Resp.done)
    else if !([0x00, 0x08, 0x18, 0x40].contains off) then (s, Resp.denied 3 18)
    else if off = 0x00 ∧ cx.elasticPin ∧ !bit v 1 then (s, Resp.denied 6 0)
    else if cx.state ≠ .stopped then (s, Resp.status_ stNeedsQuiesce)
    else if off = 0x00 then
      let s := s.setCtx x { cx with enable := bit v 0, elastic := bit v 1, cargoExact := bit v 2 }
      (if bit v 1 && !cx.elastic then s.measureRegion (x / 4) else s, Resp.done)
    else if off = 0x08 then
      if cx.loaded ∧ bits v 0 30 < max cx.pProved cx.overhead then (s, Resp.denied 3 24)
      else (s.setCtx x { cx with period := bits v 0 30 }, Resp.done)
    else if off = 0x18 then (s.setCtx x { cx with stretchLimit := bits v 0 26 }, Resp.done)
    else (s.setCtx x { cx with cargoExp := Vector.ofFn (fun n => BitVec.ofNat 16 (bits v (16 * n.val) 16)) }, Resp.done))

/-! ### Start, formation, resume, abort (R58, R64, R341, R535) -/

/-- May the context leave STOPPED, and does its domain span devices as asked? -/
def Ctx.mayStart (cx : Ctx) (spans : Bool) : Bool := cx.loaded && cx.state == .stopped && cx.enable && cx.spans == spans

/-- A set staged on the STOPPED context comes into force, and with it the configuration digest (R64, R535). -/
def State.leaveStopped (s : State) (c : Nat) : State :=
  match (s.ctx c).staged with
  | some g => (s.applySet c g false).settle g.fn g.slot stOK 0 0 12 (stageResult 0 g.digest)
  | none => s.renewDigest c

/-- DOMAIN_START: a loaded domain of one device begins the gather of lock 0 (R42, R64). -/
def execDomainStart (f : Nat) (s : State) : Out :=
  ctxCmd f 0x0403 s (fun x _ s =>
    if !(s.ctx x).mayStart false then (s, Resp.denied 6 0)
    else
      let s := (s.modCtx x (fun cx => { cx with imageValue := s.imageWord x })).leaveStopped x
      ((s.modCtx x (fun cx => { cx with state := .forming, started := false, formedHere := true })).holdTimed x, Resp.done))

/-- DOMAIN_FORM: the formation command of a member device; a set staged on the STOPPED context comes into force (R64, R341). -/
def execDomainForm (f : Nat) (s : State) : Out :=
  ctxDeferred f 0x0404 s
    (fun x _ => if !(s.ctx x).mayStart true ∨ (s.grantOf x).isNone then some (Resp.denied 6 0) else none)
    (fun x _ k s =>
      (((s.leaveStopped x).modCtx x (fun cx => { cx with
        state := .forming, started := false, formedHere := false, identified := true
        formation := some { fn := f, slot := k, started := s.now, sent := false } })).holdTimed x).formStep x)

/-- DOMAIN_RESUME: the root fires a held release again; from another member the resume goes up the tree (R58).
[DESIGN CHOICE: log 133] -/
def State.resume (s : State) (c : Nat) : State :=
  match (s.ctx c).heldRelease, s.isRoot c with
  | some r, true => (s.releaseDown c { r with fire := s.now }).resumeRelease c s.now r
  | _, _ => { s with fabric := { s.fabric with resumes := s.fabric.resumes ++ [(s.ctx c).domainId] } }

/-- A resume is possible: the domain is HALTED at a held release. -/
def Ctx.resumable (cx : Ctx) : Bool := cx.state == .halted && cx.heldRelease.isSome

def execDomainResume (f : Nat) (s : State) : Out :=
  ctxCmd f 0x0407 s (fun x _ s =>
    if !(s.ctx x).resumable then (s, Resp.denied 6 0)
    else if (s.ctx x).holdReleases then (s, Resp.status_ stBusy)
    else (s.resume x, Resp.done))

/-- DOMAIN_ABORT: the domain ends on every member; the command completes with ABORTED (R58, R350). -/
def execDomainAbort (f : Nat) (s : State) : Out :=
  ctxDeferred f 0x0408 s (fun _ _ => none) (fun x _ k s =>
    match (s.ctx x).state with
    | .aborted => s.settle f k stAborted 0 0 0 0
    | .stopped => s.settle f k stDenied 0x6000 0 0 0
    | _ => (s.modCtx x (fun cx => { cx with abortBy := cx.abortBy ++ [(f, k)] })).abortDomain x)

/-- STEP: a HALTED domain goes on and halts again at lock L + n (R427). -/
def execStep (f : Nat) (s : State) : Out :=
  ctxDeferred f 0x0805 s
    (fun x c => if fieldLE c 20 4 = 0 then some (Resp.denied 3 20) else if !(s.ctx x).resumable then some (Resp.denied 6 0)
      else if (s.ctx x).holdReleases then some (Resp.status_ stBusy) else none)
    (fun x c k s =>
      let l := (s.ctx x).index + fieldLE c 20 4
      (s.modCtx x (fun cx => { cx with haltAt := cx.haltAt ++ [l], stepTarget := some (f, k, l) })).resume x)

/-! ### Staged sets (R64 to R69, R404) -/

/-- A reserved byte of the items of a set is nonzero: in an item's header, or among those that its value's layout does not name
(R387, R390, R404). -/
def itemsReserved : Nat → List Byte → Bool
  | 0, _ => false
  | n + 1, l =>
    let len := ofBytesLE ((l.drop 2).take 2)
    ofBytesLE ((l.drop 4).take 4) != 0 || itemReserved (ofBytesLE (l.take 2)) ((l.drop 8).take len) || itemsReserved n (l.drop (8 + len))

def setReserved (l : List Byte) : Bool :=
  ofBytesLE ((l.drop 12).take 4) != 0 || ofBytesLE ((l.drop 6).take 2) != 0 || itemsReserved (min 80 (ofBytesLE ((l.drop 8).take 4))) (l.drop 16)

/-- A set as the command's string gives it, or what refuses it. -/
def readSet (l : List Byte) : Except Resp (Nat × List (Nat × List Byte) × Nat) :=
  if setReserved l then .error (Resp.denied 2 0xFFF)
  else match parseSet l with
    | none => .error (Resp.denied 3 0xFFF)
    | some (t, items, rest) =>
      if items.any (fun p => (itemLength p.1).isNone) then .error (Resp.denied 3 0xFFF)
      else if rest.any (fun b => b != 0#8) then .error (Resp.denied 2 0xFFF)
      else .ok (t, items, setDigest (l.take (l.length - rest.length)))

/-- What refuses a set at acceptance (R64, R342). [DEDUCED: log 135] -/
def State.stageFault (s : State) (x c : Nat) : Option Resp :=
  match s.descFault c with
  | some r => some r
  | none => match readSet (s.descBytes c) with
    | .error r => some r
    | .ok (_, items, _) =>
      let cx := s.ctx x
      if cx.spans && cx.state.live && decide (0x10 ≤ cx.version) && decide (cx.version < 0x20) then some (Resp.status_ stNoCap)
      else (s.stageStatus x items).map (fun st => if st = stDenied then
        (if cx.state = .aborted ∨ (cx.elasticPin && items.any (fun p => p.1 == itMode && p.2.headD 0 == 0#8)) then Resp.denied 6 0 else Resp.denied 3 0xFFF)
        else Resp.status_ st)

/-- The record of an accepted set: on one device it is armed at once unless lock T − 1 is still to fire (R67, R69). -/
def Ctx.stage (cx : Ctx) (f k t digest : Nat) (items : List (Nat × List Byte)) : Staged :=
  let next := cx.gathering
  let now := cx.state.live && !cx.spans && decide (t ≤ next)
  { target := t, digest := digest, items := items, acceptedAt := cx.index, onStopped := cx.state == .stopped
    armed := if now then some next else none, lateMode := now && decide (t < next), fn := f, slot := k }

/-- DOMAIN_STAGE: a set is taken and commits, is withdrawn or is discarded later (R64 to R69); `bus` is a completion error on
its transfer (R394). -/
def execDomainStage (f : Nat) (bus : Bool) (s : State) : Out :=
  ctxDeferred f 0x0405 s (fun x c => if bus then s.descFault c else s.stageFault x c) (fun x c k s =>
    if bus then s.settle f k stIntegrity 0 0 0 0
    else match readSet (s.descBytes c) with
      | .error _ => s
      | .ok (t, items, d) => s.modCtx x (fun cx => { cx with staged := some (cx.stage f k t d items) }))

/-- DOMAIN_WITHDRAW: a set not yet armed is given up (R68). [DEDUCED: log 136] -/
def execDomainWithdraw (f : Nat) (s : State) : Out :=
  ctxCmd f 0x0406 s (fun x _ s =>
    match (s.ctx x).staged with
    | none => (s, Resp.denied 6 0)
    | some g =>
      if g.armed.isSome ∨ (g.onStopped ∧ (s.ctx x).state ≠ .stopped) then (s, Resp.status_ stBusy)
      else ((s.modCtx x (fun cx => { cx with staged := none })).settle g.fn g.slot stAborted 0 0 0 0, Resp.done))

/-! ### Grants and the fabric (R326, R327, R341) -/

/-- The field of a grant record that lies outside its limits, as an offset in MBX_CMD. [DEDUCED: log 137] -/
def Grant.badField (g : Grant) : Option Nat :=
  let flags := fieldLE g.raw 3 1
  let kids := fieldLE g.raw 5 1
  if bits flags 1 6 ≠ 0 then some 19
  else if g.root ≠ (g.parent == 0xFF) ∨ (6 ≤ g.parent ∧ g.parent ≠ 0xFF) then some 20
  else if 64 ≤ kids ∨ (g.parent < 6 ∧ bit kids g.parent) then some 21
  else if 6 ≤ g.backup ∧ g.backup ≠ 0xFF then some 22
  else if !(List.contains [1, 2, 4, 8, 16] g.k) then some 23
  else ((List.range 6).find? (fun i => let t := g.trunks.getD i (0, 0, 0); decide (4096 < t.2.1 + t.2.2))).map (fun i => 26 + 8 * i)

/-- Do two circuit ranges share a circuit? -/
def rangesMeet (a b : Nat × Nat × Nat) : Bool := decide (a.2.1 < b.2.1 + b.2.2) && decide (b.2.1 < a.2.1 + a.2.2)

/-- Are the slots, pairs, circuits and contexts of a grant to be had (R341 step 1)? -/
def State.grantFits (s : State) (g : Grant) : Bool :=
  let others := s.fabric.grants.filter (fun p => p.1 ≠ g.domainId)
  let port (p : Nat) : GPort := (s.port p).dropOwner g.domainId
  (List.range 6).all (fun t =>
    let m := (g.trunks.getD t (0, 0, 0)).1
    (trunkPorts t).all (fun p => (idleOwner (port p).fsltTx m).length == m && (idleOwner (port p).fsltRx m).length == m) &&
    others.all (fun o => !rangesMeet (g.trunks.getD t (0, 0, 0)) (o.2.trunks.getD t (0, 0, 0)))) &&
  g.edges.all (fun t => (idlePairs (port (8 * t)).gmptTx g.k).isSome && (idlePairs (port (8 * t)).gmptRx g.k).isSome) &&
  (g.relay || decide ((others.filter (fun o => o.2.tenant == g.tenant && !o.2.relay)).length < 4))

/-- DOMAIN_GRANT (R341 step 1). -/
def execDomainGrant (f : Nat) (s : State) : Out :=
  immediate f 0x0410 s (fun c s =>
    let g := grantOfBytes (fieldLE c 16 64)
    match g.badField with
    | some o => (s, Resp.denied 3 o)
    | none =>
      if ((s.ctxOfDomain g.domainId).map (fun x => (s.ctx x).state == .running)).getD false then (s, Resp.status_ stNeedsQuiesce)
      else if !s.grantFits g then (s, Resp.status_ stNoResource)
      else (s.applyGrant g, Resp.done))

/-- FABRIC_CONFIG: device identifier, time master and FABRIC_FMAX (R338, R339). -/
def execFabricConfig (f : Nat) (s : State) : Out :=
  immediate f 0x0411 s (fun c s =>
    let id := fieldLE c 16 2
    let m := fieldLE c 18 1
    let fmax := fieldLE c 20 2
    if 12287 < id then (s, Resp.denied 3 16)
    else if 1 < m then (s, Resp.denied 3 18)
    else if 2500 < fmax then (s, Resp.denied 3 20)
    else if s.ctxs.any (fun p => p.2.state == .running) then (s, Resp.status_ stNeedsQuiesce)
    else ({ s with fabric := { s.fabric with devid := id, master := bit m 0, fmax := fmax } }, Resp.done))

end Sys2Proof.Machine
end

