-- ==== Sys2Proof/Machine/Regs.lean ====
section
/-! DEFINITION. Management accesses (17_power_clocks.md R473) and the provider's register commands (14_mailboxes.md R406):
every unit's register map. -/

namespace Sys2Proof.Machine

/-! ### Management accesses (R473) -/

/-- The power domain of a register's unit and, where its clock can stop, its die. -/
structure Target where
  pd : Nat
  die : Option Nat := none
  deriving DecidableEq, Repr

/-- The target of a register in a tile or its router. -/
def tileTarget (t : Nat) : Target := { pd := 2 + groupOfDie (dieOf t), die := some (dieOf t) }

/-- A stopped die's clock runs again for an access (R457). -/
def State.wake (s : State) (t : Target) : State :=
  match t.die with
  | some d => if (s.die d).state = .stopped then s.setDie d { s.die d with state := .running } else s
  | none => s

/-- A command's access after the check of its target (R473). -/
def State.access (s : State) (t : Target) (run : State → State × Resp) : State × Resp :=
  if !s.power.pdOn.getLsbD t.pd then (s, Resp.fail stNotReady (0x100 + t.pd)) else run (s.wake t)

/-! ### Router and wharf registers (R205, R218) -/

/-- The router register at an offset; offsets not listed read as zero. -/
def Router.reg (r : Router) (o : Nat) : Nat :=
  if o < 0x2000 then bits (Tbl.get 0#128 r.routes (o / 16)).toNat (8 * (o % 16)) 64
  else match o with
    | 0x2000 => r.openMask.toNat
    | 0x2008 => r.status.toNat
    | 0x2010 => pack [(0, 16, r.fence.toNat), (16, 16, r.miss.toNat), (32, 16, r.mismatch.toNat)]
    | 0x2018 => pack [(0, 16, r.hdrCe.toNat), (16, 16, r.hdrUe.toNat), (32, 16, r.payCe.toNat), (48, 16, r.payUe.toNat)]
    | 0x2020 => r.lastDrop.toNat
    | _ => 0

/-- The wharf register at an offset. -/
def Wharf.reg (w : Wharf) (o : Nat) : Nat :=
  if 0x100 ≤ o ∧ o < 0x900 then bits (w.wst ((o - 0x100) / 32)).toNat (8 * ((o - 0x100) % 32)) 64
  else match o with
    | 0x000 => w.status.toNat
    | 0x008 => w.err.toNat
    | 0x010 => pack [(0, 16, w.xof.toNat), (16, 16, w.xnv.toNat), (32, 16, w.xuf.toNat)]
    | _ => 0

/-- Clears the flags of WHF_STATUS that `v` names. -/
def Wharf.clear (w : Wharf) (v : Nat) : Wharf := { w with status := w.status &&& ~~~BitVec.ofNat 6 v }

/-! ### Port registers (12, Port registers; R323, R326; 15, Loop port registers) -/

def LinkState.code : LinkState → Nat
  | .down => 0
  | .signal => 1
  | .align => 2
  | .negotiate => 3
  | .delay => 4
  | .tables => 5
  | .up => 6
  | .failed => 7

/-- GLINK. -/
def GPort.glink (q : GPort) : Nat :=
  pack [(0, 3, q.state.code), (4, 3, if q.state = .up then q.width else 0), (8, 8, q.vminor), (16, 8, q.vmajor), (24, 12, q.fdelay),
    (36, 14, q.partner), (50, 8, q.pport)]

/-- A slot-table entry as FSLT shows it: system slots belong to the system. -/
def fsltEntry (t : Tbl (BitVec 32)) (i : Nat) : Nat := if sysSlot i then 2 ^ 17 else (Tbl.get 0#32 t i).toNat

/-- Two entries of a slot table in one register. -/
def fsltReg (t : Tbl (BitVec 32)) (o : Nat) : Nat := fsltEntry t (o / 4) + 2 ^ 32 * fsltEntry t (o / 4 + 1)

/-- The register of a Giore or Basin port at an offset. -/
def GPort.reg (q : GPort) (o : Nat) : Nat :=
  if 0x800 ≤ o ∧ o < 0x1000 then fsltReg q.fsltTx (o - 0x800)
  else if 0x1000 ≤ o ∧ o < 0x1800 then fsltReg q.fsltRx (o - 0x1000)
  else if 0x1800 ≤ o ∧ o < 0x1880 then (Tbl.get 0#64 q.gmptTx ((o - 0x1800) / 8)).toNat
  else if 0x1880 ≤ o ∧ o < 0x1900 then (Tbl.get 0#64 q.gmptRx ((o - 0x1880) / 8)).toNat
  else match o with
    | 0x000 => q.glink
    | 0x008 => q.status.toNat
    | 0x010 => pack [(0, 16, q.crcCount.toNat), (16, 16, q.dropCount.toNat), (32, 16, q.overrunCount.toNat), (48, 16, q.poisonCount.toNat)]
    | _ => 0

/-- The register of a Loop port at an offset. -/
def LoopPort.reg (x : LoopPort) (o : Nat) : Nat :=
  match o with
  | 0x000 => pack [(0, 1, b2n x.up), (1, 1, b2n x.pfc), (2, 3, x.prio.toNat), (16, 10, x.qps.length)]
  | 0x008 => x.stat.toNat
  | 0x010 => pack [(0, 16, x.icrc.toNat), (16, 16, x.cmReject.toNat), (32, 16, x.inputReject.toNat), (48, 16, x.replyDiscard.toNat)]
  | _ => 0

/-! ### Slot tables of the canal (R210, R212) -/

/-- Canal links of a shared endpoint. -/
def canalLinks (ep : Nat) : Nat :=
  if ep < 576 then 0 else if ep < 608 then 16 else if ep < 624 then 4 else if ep < 626 then 2 else if ep = 626 then 1 else 0

def State.csltReg (s : State) (index o : Nat) : Nat :=
  let o := o % 4096
  if canalLinks (index / 16) ≤ index % 16 ∨ 1024 ≤ o then 0
  else pack ((List.range 4).map (fun k => (16 * k, 16, s.cslt (index / 16) (o / 2 + k))))

/-! ### Hold controllers, entropy, device (R224, R443, R474; 10 ENT_STATUS) -/

/-- The register of a Hold controller at an offset. -/
def State.holdReg (s : State) (k o : Nat) : Nat :=
  let h := s.stack k
  if o < 0x800 then (s.tenant (o / 8)).hwin
  else match o with
    | 0x800 => pack [(0, 1, b2n h.failed), (1, 1, b2n h.degraded), (2, 1, b2n h.rebuilding), (3, 1, b2n h.takeover), (8, 7, h.progress)]
    | 0x808 => h.status.toNat
    | 0x810 => pack [(0, 32, h.corrected.toNat), (32, 16, h.rebuilt.toNat), (48, 16, h.poisoned.toNat)]
    | _ => 0

def EntState.code : EntState → Nat
  | .startup => 0
  | .ok => 1
  | .restarting => 2
  | .failed => 3

/-- ENT_STATUS and ENT_COUNT. -/
def State.entReg (s : State) (o : Nat) : Nat :=
  let e := s.entropy
  match o with
  | 0x00 => pack [(0, 2, e.st.code), (2, 2, e.restarts), (4, 1, b2n e.rctFail), (5, 1, b2n e.aptFail), (6, 1, b2n e.startFail),
      (7, 1, b2n e.seeded), (8, 1, b2n s.reseedDue)]
  | 0x08 => pack [(0, 32, e.passed.toNat), (32, 16, e.failed.toNat)]
  | _ => 0

def ClkState.code : ClkState → Nat
  | .running => 0
  | .stopped => 1
  | .off => 2

/-- CLK_DIEn. -/
def State.clkDie (s : State) (n : Nat) : Nat :=
  let d := s.die n
  pack [(0, 6, d.step), (6, 2, d.state.code), (8, 1, b2n (s.dieTimed n)), (9, 1, b2n (s.dieShared n)), (10, 1, b2n d.throttled),
    (16, 6, d.target), (32, 16, s16 d.temp)]

/-- GFAB. -/
def Fabric.gfab (f : Fabric) : Nat := pack [(0, 14, f.devid), (14, 1, b2n f.master), (16, 12, f.fmax), (28, 7, min f.terr 127)]

/-- The device unit's register at an offset. -/
def State.devReg (s : State) (o : Nat) : Nat :=
  let p := s.power
  if 0x200 ≤ o ∧ o < 0x380 then s.clkDie ((o - 0x200) / 8)
  else match o with
    | 0x000 => s.fabric.gfab
    | 0x008 => b2n s.crossLend
    | 0x100 => pack [(0, 16, p.cap), (16, 16, p.effCap), (32, 16, p.pcomp)]
    | 0x108 => pack [(0, 20, p.pdOn.toNat), (20, 1, b2n p.flowOk), (21, 1, b2n p.derated), (22, 1, b2n p.overCap)]
    | 0x110 => p.status.toNat
    | 0x118 => pack [(0, 16, p.total.toNat), (16, 16, p.compute.toNat), (32, 16, p.fixedDies.toNat)]
    | 0x180 => p.xingOvr.toNat
    | _ => 0

/-- The domain context's register at an offset: its own block, and the update block from 0x200. -/
def Ctx.reg (cx : Ctx) (o : Nat) : Nat :=
  if o < 0x50 then cx.lkd.getD (o / 8) 0
  else if 0x100 ≤ o ∧ o < 0x160 then cx.stretch.getD ((o - 0x100) / 8) 0
  else if 0x200 ≤ o ∧ o < 0x248 then cx.upd.regs.getD ((o - 0x200) / 8) 0
  else 0

/-! ### REG_READ and REG_WRITE (R406) -/

/-- The target of an access to a unit; none beyond the unit's index range. -/
def unitTarget (unit i : Nat) : Option Target :=
  match unit with
  | 1 => if i < numTiles then some (tileTarget i) else none
  | 2 => if i < numGranules then some { pd := 1 } else none
  | 3 => if i < 64 then some { pd := if i < 24 ∨ (48 ≤ i ∧ i < 52) ∨ (56 ≤ i ∧ i < 60) then 18 else 19 } else none
  | 4 => some { pd := 1 }
  | 5 => if i < 32 then some { pd := 14 + i / 8 } else none
  | 6 => if i = 0 then some { pd := 0 } else none
  | 7 => if i < numTenants then some { pd := 0 } else none
  | 8 => if i = 0 then some { pd := 0 } else none
  | 9 => if i < numCtxs then some { pd := 1 } else none
  | _ => none

/-- A register of a unit; unlisted ones read as zero. -/
def State.unitReg (s : State) (unit i o : Nat) : Nat :=
  match unit with
  | 1 => (s.router i).reg o
  | 2 => (s.wharf i).reg o
  | 3 => if i < 48 then (s.port i).reg o else if i < 56 then (Tbl.get {} s.loops (i - 48)).reg o else (s.port (i - 8)).reg o
  | 4 => s.csltReg i o
  | 5 => s.holdReg i o
  | 6 => s.entReg o
  | 7 => if o < 0x28 then (s.tenant i).block.getD (o / 8) 0 else 0
  | 8 => s.devReg o
  | 9 => (s.ctx i).reg o
  | _ => 0

/-- Is the register one of W1C bits? -/
def unitW1c (unit o : Nat) : Bool :=
  [(1, 0x2008), (2, 0x000), (3, 0x008), (5, 0x808), (6, 0x00), (7, 0x000), (8, 0x110), (8, 0x180), (9, 0x048), (9, 0x238)].contains (unit, o)

/-- The W1C bits that `v` names clear (R96). -/
def State.unitClear (s : State) (unit i o v : Nat) : State :=
  match unit, o with
  | 1, _ => s.setRouter i { s.router i with status := (s.router i).status &&& ~~~BitVec.ofNat 5 v }
  | 2, _ => s.modWharf i (fun w => w.clear v)
  | 3, _ =>
    if 48 ≤ i ∧ i < 56 then
      let x : LoopPort := Tbl.get {} s.loops (i - 48)
      { s with loops := s.loops.set (i - 48) { x with stat := x.stat &&& ~~~BitVec.ofNat 5 v } }
    else s.modPort (if i < 48 then i else i - 8) (fun q => { q with status := q.status &&& ~~~BitVec.ofNat 8 v })
  | 5, _ => s.setStack i { s.stack i with status := (s.stack i).status &&& ~~~BitVec.ofNat 4 v }
  | 6, _ => s.modEntropy (fun e => { e with
      rctFail := e.rctFail && !bit v 4, aptFail := e.aptFail && !bit v 5, startFail := e.startFail && !bit v 6 })
  | 7, _ => s.modTenant i (fun t => { t with scrubFailed := t.scrubFailed && !bit v 3 })
  | 8, 0x110 => s.modPower (fun p => { p with status := p.status &&& ~~~BitVec.ofNat 8 v })
  | 8, _ => s.modPower (fun p => { p with xingOvr := p.xingOvr &&& ~~~BitVec.ofNat 60 v })
  | 9, 0x048 => s.modCtx i (fun cx => cx.clearStatus v)
  | 9, _ => s.modCtx i (fun cx => { cx with upd := { cx.upd with ustatus := cx.upd.ustatus &&& ~~~BitVec.ofNat 9 v } })
  | _, _ => s

/-- REG_READ of a command: `count` registers of 8 B from an offset. -/
def State.regRead (s : State) (c : Nat) : State × Resp :=
  let unit := fieldLE c 16 1
  let i := fieldLE c 18 2
  let off := fieldLE c 20 4
  let n := fieldLE c 24 1
  if unit = 0 ∨ 9 < unit then (s, Resp.denied 3 16)
  else if off % 8 ≠ 0 then (s, Resp.denied 3 20)
  else if n = 0 ∨ 28 < n then (s, Resp.denied 3 24)
  else match unitTarget unit i with
    | none => (s, Resp.ok (8 * n) 0)
    | some t => s.access t (fun (s : State) =>
        (s, Resp.ok (8 * n) (packLE ((List.range n).map (fun k => (8 * k, 8, s.unitReg unit i (off + 8 * k)))))))

/-- REG_WRITE of a command: only W1C bits change. -/
def State.regWrite (s : State) (c : Nat) : State × Resp :=
  let unit := fieldLE c 16 1
  let i := fieldLE c 18 2
  let off := fieldLE c 20 4
  if unit = 0 ∨ 9 < unit then (s, Resp.denied 3 16)
  else if fieldLE c 24 1 ≠ 1 then (s, Resp.denied 3 24)
  else if !unitW1c unit off then (s, Resp.denied 3 20)
  else match unitTarget unit i with
    | none => (s, Resp.done)
    | some t => s.access t (fun (s : State) => (s.unitClear unit i off (fieldLE c 32 8), Resp.done))

/-- REG_READ (R406, R473). [DEDUCED: log 138] -/
def execRegRead (f : Nat) (s : State) : Out := immediate f 0x0505 s (fun c s => s.regRead c)

/-- REG_WRITE (R406, R473). -/
def execRegWrite (f : Nat) (s : State) : Out := immediate f 0x0506 s (fun c s => s.regWrite c)

end Sys2Proof.Machine
end

