-- ==== Sys2Proof/Machine/Provider.lean ====
section
/-! DEFINITION. Provider commands: profiles and the power cap (R458, R499), telemetry (R375, R424), firmware updates (R488
to R494), calibration (R501, R502) and the real-time clock (R504, R506). -/

namespace Sys2Proof.Machine

/-! ### Profiles and the power cap -/

/-- Does no domain form or run: a quiescent point (R502)? -/
def State.quiescent (s : State) : Bool := s.ctxs.all (fun p => p.2.state != .forming && p.2.state != .running)

/-- A Giore or Basin port that a profile newly disables goes down; one newly enabled trains from DOWN (R499).
[DEDUCED: log 146] -/
def State.switchPort (s : State) (old new : Profile) (p : Nat) : State :=
  if old.portOn p && !new.portOn p then s.modPort p (fun q => { q.enter .down s.now with signalLostAt := some s.now }) else s

/-- A Loop port whose configuration or enable changes closes its queue pairs and brings its link up again (R409, R499). -/
def State.switchLoop (s : State) (old new : Profile) (l : Nat) : State :=
  if old.loopField l 0 64 = new.loopField l 0 64 ∧ old.loopOn l = new.loopOn l then s
  else
    let was := (s.loop l).up
    let s := ((s.loop l).qps.map Prod.fst).foldl (fun (s : State) q => s.closeQp l q) s
    let s := s.modLoop l (fun x => LoopPort.configure l new { x with up := false, paused := false })
    if was then (s.modLoop l (fun x => x.flag lsDown)).linkEvent l 5 else s

/-- A profile is applied during a session (R499). -/
def State.applyProfile (s : State) (p : Profile) (i : Nat) : State :=
  let old := s.boot.profile
  let s := s.takeProfile p i
  let s := (List.range numPorts).foldl (fun (s : State) k => s.switchPort old p k) s
  let s := (List.range numLoops).foldl (fun (s : State) l => s.switchLoop old p l) s
  (s.profileEvent 1 i 1 0).capChangeAll

/-- SET_PROFILE (R499). -/
def execSetProfile (f : Nat) (s : State) : Out :=
  immediate f 0x0501 s (fun c s =>
    let i := fieldLE c 16 1
    let p := s.storedProfile i
    let used := (s.loads.map (fun q => q.2.copyBytes)).sum
    if 4 ≤ i then (s, Resp.denied 3 16)
    else if s.tenants.any (fun q => q.2.st == .settingUp || q.2.st == .releasing) || !s.quiescent then (s, Resp.status_ stNeedsQuiesce)
    else if !Profile.ok p i then (s, Resp.denied 3 16)
    else if s.tenants.any (fun q => q.2.st != .free && decide (1792 - p.reserve < q.2.baseGib + q.2.sizeGib)) ∨ p.reserve * 2 ^ 30 < used then
      (s, Resp.status_ stNoResource)
    else (s.applyProfile p i, Resp.done))

/-- POWER_CAP: the cap C in W (R458, R468). [DEDUCED: log 145] -/
def execPowerCap (f : Nat) (s : State) : Out :=
  immediate f 0x0502 s (fun c s =>
    let cap := fieldLE c 16 4
    if cap < 8000 ∨ 23000 < cap then (s, Resp.denied 3 16)
    else
      let old := s.power.effCap
      let s := s.setCaps cap s.power.coolant
      (if s.power.effCap = old then s else s.powerEvent 4 0xFF, Resp.done))

/-! ### TELEMETRY (R375, R424) -/

/-- TELEMETRY of one kind. -/
def telemetry (f kind : Nat) (s : State) (run : Nat → State → State × Resp) : Out :=
  if 514 ≤ f then .fault .noSuchUnit
  else if (s.underWay f).map (fun c => fieldLE c 16 1) = some kind then
    immediate f 0x0508 s (fun c s => if 2 ≤ fieldLE c 21 1 then (s, Resp.denied 3 21) else run c s)
  else .next s

/-- The context that CTX of a TELEMETRY names, bytes 18 and 19 (R403, R424). -/
def telCtx (f c : Nat) : Except Resp Nat :=
  let x := fieldLE c 18 2
  match fnTenant f with
  | some t => if 3 < x then .error (Resp.denied 3 18) else .ok (4 * t + x)
  | none => if numCtxs ≤ x then .error (Resp.denied 3 18) else .ok x

/-- A sample as a 32-byte record. -/
def GroupSample.record (x : GroupSample) (g : Nat) : Nat :=
  packLE [(0, 8, x.time), (8, 1, g), (9, 1, b2n x.throttling + 2 * b2n x.tripped + 4 * b2n x.off), (10, 2, x.power), (12, 2, s16 x.temp),
    (14, 2, x.volt), (16, 2, x.amps)]

/-- TELEMETRY kind 0: samples of a compute group, newest first; a tenant only where R375 lets it. -/
def execTelemetryComputeGroup (f : Nat) (s : State) : Out :=
  telemetry f 0 s (fun c s =>
    let g := fieldLE c 17 1
    let n := fieldLE c 20 1
    let own := match fnTenant f with
      | some t => (s.groupReaders g).contains t
      | none => true
    if numGroups ≤ g then (s, Resp.denied 3 17)
    else if !own then (s, Resp.denied 1 0)
    else if n = 0 ∨ 7 < n then (s, Resp.denied 3 20)
    else
      let l := (Tbl.get [] s.power.samples g).take n
      (s, Resp.ok (32 * l.length) (packLE ((l.zip (List.range l.length)).map (fun p => (32 * p.2, 32, p.1.record g))))))

/-- TELEMETRY kind 1: the coolant's last sample, for the provider. -/
def execTelemetryCoolant (f : Nat) (s : State) : Out :=
  telemetry f 1 s (fun c s =>
    let x := s.power.coolSamples.headD {}
    if (fnTenant f).isSome then (s, Resp.denied 1 0)
    else if fieldLE c 17 1 ≠ 0 then (s, Resp.denied 3 17)
    else (s, Resp.ok 32 (packLE [(0, 8, x.time), (8, 2, s16 x.inlet), (10, 2, s16 x.outlet), (12, 2, s16 x.flow), (14, 2, x.drop),
      (16, 1, b2n s.power.flowOk)])))

/-- Counter `i` of a monitor slot over a domain's region. [DEDUCED: log 144] -/
def State.monSum (s : State) (c k i : Nat) : Nat :=
  min (2 ^ 32 - 1) (((s.gransOf c).map (fun g => Tbl.get 0 (Tbl.get ({} : MonSlot) s.mons (16 * g + k)).counts i)).sum)

/-- TELEMETRY kind 2: a monitor slot over the region of a context, cleared after the read where asked (R420). -/
def execTelemetryMonitor (f : Nat) (s : State) : Out :=
  telemetry f 2 s (fun c s =>
    let k := fieldLE c 17 1
    match telCtx f c with
    | .error r => (s, r)
    | .ok x =>
      if k = 0 ∨ 15 < k then (s, Resp.denied 3 17)
      else
        let am := (s.gransOf x).filterMap (fun g => (Tbl.get ({} : MonSlot) s.mons (16 * g + k)).amaxe)
        let amaxe := match am with
          | [] => 0x8000
          | a :: r => s16 (r.foldl max a)
        let t := ((s.tilesOf x).head?.map (fun t => Tbl.get 0x7F (s.tile t).nmScale k)).getD 0x7F
        let out := packLE ((List.range 37).map (fun i => (4 * i, 4, s.monSum x k i)) ++ [(148, 2, amaxe), (150, 1, t)])
        (if bit (fieldLE c 21 1) 0 then s.clearMon x k else s, Resp.ok 151 out))

/-- TELEMETRY kind 3: the seven idle totals of a context (R55). -/
def execTelemetryIdleTotals (f : Nat) (s : State) : Out :=
  telemetry f 3 s (fun c s =>
    match telCtx f c with
    | .error r => (s, r)
    | .ok x =>
      if fieldLE c 17 1 ≠ 0 then (s, Resp.denied 3 17)
      else (s, Resp.ok 56 (packLE ((List.range 7).map (fun i => (8 * i, 8, ((s.ctx x).totals.toList.getD i 0).toNat))))))

/-- TELEMETRY kind 4: the counts of a Loop stream, named by its granule in the region and its entry. -/
def execTelemetryStream (f : Nat) (s : State) : Out :=
  telemetry f 4 s (fun c s =>
    let gx := fieldLE c 22 1
    let gy := fieldLE c 23 1
    let i := fieldLE c 24 1
    match telCtx f c with
    | .error r => (s, r)
    | .ok x =>
      let t := s.tenant (x / 4)
      if t.width ≤ gx ∨ t.height ≤ gy then (s, Resp.denied 3 22)
      else if 64 ≤ i then (s, Resp.denied 3 24)
      else
        let p := s.loopStream (64 * s.physGran (32 * (t.oy + gy) + t.ox + gx) + i)
        (s, Resp.ok 24 (packLE [(0, 4, p.accepted.toNat), (4, 4, p.tooLong.toNat), (8, 4, p.denied.toNat), (12, 4, p.rnrs.toNat),
          (16, 4, p.replies.toNat), (20, 4, p.discarded.toNat)])))

/-- TELEMETRY kind 5: expansion counts over the wharves of a tenant's region (R218). -/
def execTelemetryExpansion (f : Nat) (s : State) : Out :=
  telemetry f 5 s (fun c s =>
    let n := (fnTenant f).getD (fieldLE c 22 1)
    let gs := s.tenantGrans n
    let sum (v : Wharf → BitVec 16) : Nat := min (2 ^ 32 - 1) ((gs.map (fun g => (v (s.wharf g)).toNat)).sum)
    let out := packLE [(0, 4, sum Wharf.xof), (4, 4, sum Wharf.xnv), (8, 4, sum Wharf.xuf)]
    if fieldLE c 17 1 ≠ 0 then (s, Resp.denied 3 17)
    else
      (if bit (fieldLE c 21 1) 0 then gs.foldl (fun (s : State) g => s.modWharf g (fun w => { w with xof := 0, xnv := 0, xuf := 0 })) s else s,
       Resp.ok 12 out))

/-! ### Firmware updates (R485, R488 to R494) -/

/-- A function's open update: it belongs to the provider session of the host port that opened it (R488). -/
def State.updateOf (s : State) (f : Nat) : Option FwUpdate := s.boot.update.filter (fun u => u.port == fnPort f)

def State.setUpdate (s : State) (u : Option FwUpdate) : State := { s with boot := { s.boot with update := u } }

/-- FW_BEGIN: the bank that is not running becomes unbootable and takes an update (R488, R489). -/
def execFwBegin (f : Nat) (s : State) : Out :=
  immediate f 0x0601 s (fun c s =>
    let len := fieldLE c 16 8
    if s.boot.update.isSome then (s, Resp.status_ stBusy)
    else if 120 * 2 ^ 20 < len then (s, Resp.denied 3 16)
    else
      let b := 1 - (s.boot.running.map Running.bank).getD 0
      let s := s.setBank b { s.bank b with valid := false, pending := false }
      (s.setUpdate (some { port := fnPort f, bank := b, length := len, touched := s.now }), Resp.done))

/-- What refuses a FW_BLOCK at once. -/
def State.blockFault (s : State) (f c : Nat) : Option Resp :=
  match s.updateOf f with
  | none => some (Resp.denied 6 0)
  | some u => match s.descList c with
    | .error r => some r
    | .ok l =>
      let off := fieldLE c 16 8
      let n := descSize l
      if off % 4096 ≠ 0 ∨ u.length < off + n then some (Resp.denied 3 16)
      else if 2 ^ 20 < n ∨ (off + n < u.length ∧ n % 4096 ≠ 0) then some (Resp.denied 3 8)
      else none

/-- FW_BLOCK: whole sectors of the image are written; `bus` is the number of sectors already written when the transfer
fails (R490, R394). [DEDUCED: log 147] -/
def execFwBlock (f : Nat) (bus : Option Nat) (s : State) : Out :=
  deferredCmd f 0x0602 s (s.blockFault f) (fun c k s =>
    match s.updateOf f with
    | none => s.settle f k stDenied 0x6000 0 0 0
    | some u =>
      let off := fieldLE c 16 8
      let all := s.descBytes c
      let l := match bus with
        | some n => all.take (4096 * n)
        | none => all
      let sectors := (List.range (cdiv l.length 4096)).map (fun i => off / 4096 + i)
      let b := s.bank u.bank
      let s := s.setBank u.bank { b with factory := false, image := b.image.writeBytes off l }
      let s := s.setUpdate (some { u with written := (u.written ++ sectors).eraseDups, data := u.data.writeBytes off l, touched := s.now })
      s.settle f k (if bus.isSome then stIntegrity else stOK) 0 0 0 0)

/-- The checks of a profile set (R482, R494). -/
def profileSetOk (m : Mem) (len : Nat) : Bool :=
  imgField m 0 4 == 0x5746574C && imgField m 4 1 == 2 && imgField m 5 1 == 1 && headerZero m && imgField m 8 2 == 0 && imgField m 12 4 == 0 &&
  imgField m 16 8 == 4096 && decide (8192 ≤ len) && imgField m 72 512 == 0 && imgField m 24 48 == ofBytesLE (sha384 (m.bytes 4096 4096)) &&
  (List.range 4).all (fun i => Profile.ok (BitVec.ofNat 8192 (imgField m (4096 + 1024 * i) 1024)) i)

/-- The four profiles of a set replace the stored ones (R494, R495). -/
def State.storeProfiles (s : State) (m : Mem) : State :=
  { s with
    nv := { s.nv with profileFormat := 2, profiles := (List.range 4).map (fun i => (i, BitVec.ofNat 8192 (imgField m (4096 + 1024 * i) 1024))) }
    boot := { s.boot with defaulted := s.boot.defaulted.filter (fun a => a ≠ 1) } }

/-- FW_COMMIT's outcome over the bank as it reads back: release and security version, and the bank or settings it changes (R492). -/
def State.commitImage (s : State) (u : FwUpdate) (m : Mem) : Except Nat (State × Nat × Nat) :=
  if !(List.range (cdiv u.length 4096)).all u.written.contains then .error stImage
  else
    let type := imgField m 4 1
    let same := (m.filter (fun x => decide (x.1 < u.length))) == u.data.filter (fun x => decide (x.1 < u.length))
    let r : Except Nat (State × Nat × Nat) :=
      if type = 2 then (if profileSetOk m u.length then .ok (s.storeProfiles m, 0, 0) else .error stImage)
      else match checkFirmware m u.length s.nv.revoked s.nv.fuses with
        | .error n => .error (if n = 5 then stRollback else stImage)
        | .ok v => .ok (s.setBank u.bank { s.bank u.bank with valid := true, pending := true, fails := 0 }, v.release, v.svn)
    match r with
    | .error e => .error e
    | .ok x => if same then .ok (x.1.postPF 0x61 1 (body [(24, 1, u.bank), (25, 1, type), (26, 2, x.2.1), (28, 4, x.2.2)]), x.2.1, x.2.2)
               else .error stIntegrity

/-- FW_COMMIT: the update closes; `flips` are the bytes that the flash reads back as other values (R492 to R494). -/
def execFwCommit (f : Nat) (flips : List (Nat × Nat)) (s : State) : Out :=
  deferredCmd f 0x0603 s (fun _ => none) (fun _ k s =>
    match s.updateOf f with
    | none => s.settle f k stDenied 0x6000 0 0 0
    | some u =>
      let m := flips.foldl (fun (m : Mem) p => m.write p.1 (BitVec.ofNat 8 p.2)) (s.bank u.bank).image
      let s := (s.setUpdate none).setBank u.bank { s.bank u.bank with image := m }
      match s.commitImage u m with
      | .error e => s.settle f k e 0 0 0 0
      | .ok (s, rel, svn) => s.settle f k stOK 0 0 8 (packLE [(0, 2, rel), (4, 4, svn)]))

/-- The release that a bank shows in FW_STATUS: that of its valid image. -/
def Bank.release (b : Bank) : Nat := if !b.valid then 0 else if b.factory then factoryImage.release else imgField b.image 8 2

/-- FW_STATUS (R493). -/
def execFwStatus (f : Nat) (s : State) : Out :=
  immediate f 0x0604 s (fun _ s =>
    let a := b2n s.nv.activeB
    (s, Resp.ok 9 (packLE [(0, 1, a), (1, 1, (s.bank a).fails), (4, 2, (s.bank 0).release), (6, 2, (s.bank 1).release),
      (8, 1, b2n s.boot.update.isSome)])))

/-- FW_UPDATE_IDLE_TIMEOUT: 600 s without a command of the update (R491). -/
def execFwUpdateIdleTimeout (s : State) : Out :=
  match s.boot.update with
  | some u => if u.touched + 600000000000 ≤ s.now then .next (s.fwAbort 3) else .next s
  | none => .next s

/-! ### Real-time clock (R503, R504, R506) -/

def leapYear (y : Nat) : Bool := (y % 4 == 0 && y % 100 != 0) || y % 400 == 0
/-- Days of the months of a year. -/
def monthDays (y : Nat) : List Nat := [31, if leapYear y then 29 else 28, 31, 30, 31, 30, 31, 31, 30, 31, 30, 31]
/-- Days from 2000-01-01 to the first day of year `y`. -/
def daysBefore (y : Nat) : Nat :=
  let n := y - 2000
  365 * n + (n + 3) / 4 - (n + 99) / 100 + (n + 399) / 400

/-- A date and time. -/
structure DateTime where
  year : Nat
  month : Nat
  day : Nat
  hour : Nat
  minute : Nat
  second : Nat
  deriving DecidableEq, Repr

/-- R504's condition on a date. -/
def DateTime.valid (t : DateTime) : Bool :=
  decide (2000 ≤ t.year) && decide (t.year ≤ 2399) && decide (1 ≤ t.month) && decide (t.month ≤ 12) && decide (1 ≤ t.day) &&
  decide (t.day ≤ (monthDays t.year).getD (t.month - 1) 0) && decide (t.hour ≤ 23) && decide (t.minute ≤ 59) && decide (t.second ≤ 59)

/-- Seconds since 2000-01-01 00:00:00. -/
def DateTime.seconds (t : DateTime) : Nat :=
  86400 * (daysBefore t.year + ((monthDays t.year).take (t.month - 1)).sum + t.day - 1) + 3600 * t.hour + 60 * t.minute + t.second

/-- The date of a count of seconds. -/
def dateOf (sec : Nat) : DateTime :=
  let d := sec / 86400
  let y := 2000 + ((List.range 400).filter (fun i => decide (0 < i ∧ daysBefore (2000 + i) ≤ d))).length
  let n := d - daysBefore y
  let ms := monthDays y
  let m := ((List.range 12).filter (fun i => decide (0 < i ∧ (ms.take i).sum ≤ n))).length
  { year := y, month := m + 1, day := n - (ms.take m).sum + 1, hour := sec % 86400 / 3600, minute := sec % 3600 / 60, second := sec % 60 }

/-- TIME_SET: the clock takes a valid date and the written second begins (R504). -/
def execTimeSet (f : Nat) (s : State) : Out :=
  immediate f 0x0701 s (fun c s =>
    let t : DateTime := { year := fieldLE c 16 2, month := fieldLE c 18 1, day := fieldLE c 19 1, hour := fieldLE c 20 1
                          minute := fieldLE c 21 1, second := fieldLE c 22 1 }
    if !t.valid then (s, Resp.status_ stBadDate)
    else
      let s := { s with nv := { s.nv with rtc := { s.nv.rtc with count := t.seconds, frac := 0, valid := true } } }
      (s.postNum 0 (timeEvent s 2 0), Resp.done))

/-- TIME_GET (R506). -/
def execTimeGet (f : Nat) (s : State) : Out :=
  immediate f 0x0702 s (fun _ s =>
    let r := s.nv.rtc
    let t := dateOf r.count
    if !r.valid then (s, Resp.status_ stTimeInvalid)
    else (s, Resp.ok 16 (packLE [(0, 2, t.year), (2, 1, t.month), (3, 1, t.day), (4, 1, t.hour), (5, 1, t.minute), (6, 1, t.second), (8, 8, s.now)])))

/-! ### Calibration (R501, R502) -/

/-- The bounds of an item's user delta; none for an item not listed. -/
def calBounds (i : Nat) : Option (Int × Int) :=
  if i < 0x260 then some (-32, 32)
  else if 0x300 ≤ i ∧ i < 0x30C then some (-5, 15)
  else if 0x400 ≤ i ∧ i < 0x500 then some (-2, 2)
  else if 0x500 ≤ i ∧ i < 0x502 then some (-32, 32)
  else if 0x502 ≤ i ∧ i < 0x504 then some (-100, 100)
  else if i = 0x504 then some (-50, 50)
  else if i = 0x600 then some (-5000, 5000)
  else if 0x700 ≤ i ∧ i < 0x70D then some (-20000, 20000)
  else none

def s32 (i : Int) : Nat := wrapInt i 32

/-- User deltas in flash, the defaults where the area is left aside (R495). -/
def State.userDeltas (s : State) : Tbl Int := if s.boot.defaulted.contains 2 then [] else s.nv.userCal

/-- CAL_READ: an item's factory value, or its user delta and bounds (R501). [DEDUCED: log 148] -/
def execCalRead (f : Nat) (s : State) : Out :=
  immediate f 0x0703 s (fun c s =>
    let i := fieldLE c 18 2
    match fieldLE c 16 1, calBounds i with
    | 0, some _ => (s, Resp.ok 4 (s32 (Config.factoryCal i)))
    | 1, some (lo, hi) => (s, Resp.ok 12 (packLE [(0, 4, s32 (Tbl.get 0 s.userDeltas i)), (4, 4, s32 lo), (8, 4, s32 hi)]))
    | a, _ => (s, Resp.denied 3 (if 2 ≤ a then 16 else 18)))

/-- CAL_WRITE: a delta is stored at once and applied at the next quiescent point (R501, R502). -/
def execCalWrite (f : Nat) (s : State) : Out :=
  immediate f 0x0704 s (fun c s =>
    let i := fieldLE c 18 2
    let d := sext (fieldLE c 24 4) 32
    match calBounds i with
    | none => (s, Resp.denied 3 18)
    | some (lo, hi) =>
      if d < lo ∨ hi < d then (s, Resp.denied 3 24)
      else if s.nv.calRestore then (s, Resp.status_ stBusy)
      else
        let s := { s with
          nv := { s.nv with userCal := Tbl.put 0 s.userDeltas i d, calFormat := 3, calStored := (s.nv.calStored ++ [i]).eraseDups }
          boot := { s.boot with defaulted := s.boot.defaulted.filter (fun a => a ≠ 2) } }
        (if s.quiescent then s.applyCal else s, Resp.done))

/-- CAL_RESTORE_FACTORY: every delta becomes zero at the next quiescent point, and the command then completes (R502). -/
def execCalRestoreFactory (f : Nat) (s : State) : Out :=
  deferredCmd f 0x0705 s (fun _ => none) (fun _ k s =>
    let s := { s with nv := { s.nv with calRestore := true }, boot := { s.boot with restore := s.boot.restore ++ [(f, k)] } }
    if s.quiescent then s.applyCal else s)

/-- CAL_APPLY: the quiescent point has come (R502). -/
def execCalApply (s : State) : Out :=
  if s.boot.phase = .ready ∧ s.quiescent ∧ (s.nv.calRestore ∨ !s.nv.calStored.isEmpty) then .next s.applyCal else .next s

end Sys2Proof.Machine
end

