-- ==== Sys2Proof/Machine/Debug.lean ====
section
/-! DEFINITION. Debug commands (R81, R180, R181, R407, R425) and the watchdog of management accesses (R473). -/

namespace Sys2Proof.Machine

/-! ### The tile that a debug command names -/

/-- The physical tile at virtual v(vx, vy), where it lies in the region of the function's tenant (R407). [DEDUCED: log 140] -/
def State.debugTile (s : State) (f vx vy : Nat) : Option Nat :=
  let g := 32 * (vy / 4) + vx / 4
  match fnTenant f with
  | some n => if vx < 128 ∧ (s.tenant n).grans.contains g then some (tileAt (s.physGran g) (4 * (vy % 4) + vx % 4)) else none
  | none => none

/-- Where a debug space of a tile lies. -/
def debugTarget (p space : Nat) : Target :=
  match space with
  | 6 => { pd := 1 }
  | 7 => { pd := 14 }
  | _ => tileTarget p

/-- The outcome that refuses a span of a debug access: space, offset, byte count. -/
def spanFault (space off n : Nat) : Option Resp :=
  if 7 < space then some (Resp.denied 3 18)
  else if off % 8 ≠ 0 ∨ (space = 1 ∧ 2 ^ 22 < off + n) then some (Resp.denied 3 20)
  else if n < 8 ∨ 224 < n ∨ n % 8 ≠ 0 then some (Resp.denied 3 24)
  else none

/-! ### TILE_READ and TILE_WRITE (R407) -/

/-- The 8 bytes of a debug space at an offset, tile memory apart. -/
def State.debugWord (s : State) (n p space o : Nat) : Nat :=
  let t := s.tile p
  match space with
  | 0 => if o < 0x4000 then crRead t (s.member p) o else 0
  | 2 => if o = 0 then t.core.fstat.toNat else if o = 8 then t.core.cycle.toNat else if o = 16 then t.core.cycleHi.toNat else 0
  | 3 => bits t.mxe.record (8 * o) 64
  | 4 => bits t.vxe.record (8 * o) 64
  | 5 => if o < 0x2000 then (s.router p).reg o else 0
  | 6 => (s.wharf (granOf p)).reg o
  | 7 => if s.shardCtx (o / 64) / 4 = n ∧ shValid (s.shard (o / 64)) then bits (s.shard (o / 64)).toNat (8 * (o % 64)) 64 else 0
  | _ => 0

/-- The first of `n` words from `w` that fails its check, as an index from `w`. -/
def Tile.firstBad (t : Tile) (w n : Nat) : Option Nat :=
  (List.range n).find? (fun i => match t.chk.find (w + i) with
    | some .broken => true
    | some .poisoned => true
    | _ => false)

/-- Corrected words among `n` from word `w` are delivered corrected and counted, as at every read; a word beyond correction is neither
written back nor counted (R90, R407). -/
def Tile.countCorrected (t : Tile) (w n : Nat) : Tile :=
  (List.range n).foldl (fun (t : Tile) i => if t.chk.find (w + i) = some .corrected then (t.checkWord (w + i)).1 else t) t

/-- A debug read: of memory, the words up to the first failing one are read and checked. -/
def State.debugRead (s : State) (n p space off len : Nat) : State × Resp :=
  if space = 1 then
    match (s.tile p).firstBad (off / 8) (len / 8) with
    | some i => (s.modTile p (fun t => t.countCorrected (off / 8) i), Resp.fail stIntegrity i)
    | none => (s.modTile p (fun t => t.countCorrected (off / 8) (len / 8)), Resp.ok (16 + len) ((s.tile p).readMem off len * 2 ^ 128))
  else (s, Resp.ok (16 + len) (packLE ((List.range (len / 8)).map (fun i => (16 + 8 * i, 8, s.debugWord n p space (off + 8 * i))))))

/-- The effect of a debug write: only RW and W1C bits change; memory takes whole words and their poison clears. While no
instruction executes, GEN_OUT follows a write at once, since more cycles pass than its delay (R289). -/
def State.debugWrite (s : State) (p space off len v : Nat) : State :=
  let words := List.range (len / 8)
  match space with
  | 0 => s.modTile p (fun t =>
    let t := words.foldl (fun (t : Tile) i => if off + 8 * i < 0x4000 then crWrite t (off + 8 * i) (2 ^ 64 - 1) (fieldLE v (8 * i) 8) else t) t
    if t.core.act == .run && t.core.stop.isNone && !t.faulted then t else { t with gen := t.gen.settled })
  | 1 => s.modTile p (fun t => t.writeWhole off len v)
  | 2 => s.modTile p (fun t => { t with core := { t.core with fstat := t.core.fstat &&& ~~~BitVec.ofNat 5 v } })
  | 3 | 4 =>
    let rec_ := (v % 2 ^ (8 * len)) * 2 ^ (8 * off)
    s.modTile p (fun t =>
      let en := t.engine (space - 3)
      let en := { en with numstat := en.numstat &&& ~~~BitVec.ofNat 8 rec_ }
      t.setEngine (space - 3) (if bit rec_ 64 then { en with lowCount := 0, highCount := 0, nonfiniteCount := 0 } else en))
  | 6 => if off = 0 then s.modWharf (granOf p) (fun w => w.clear (fieldLE v 0 8)) else s
  | _ => s

/-- A debug access that a command's bytes 16 to 25 name, or what refuses it. -/
def State.debugSpan (s : State) (f c : Nat) : Except Resp (Nat × Nat × Nat × Nat) :=
  match s.debugTile f (fieldLE c 16 1) (fieldLE c 17 1) with
  | none => .error (Resp.denied 3 16)
  | some p =>
    match spanFault (fieldLE c 18 1) (fieldLE c 20 4) (fieldLE c 24 2) with
    | some r => .error r
    | none => .ok (p, fieldLE c 18 1, fieldLE c 20 4, fieldLE c 24 2)

/-- TILE_READ of a command; `ups` strikes the tile's memory first, `busy` says that the access found no free cycle in 1 ms. -/
def State.tileRead (s : State) (f c : Nat) (ups : List (Nat × Bool)) (busy : Bool) : State × Resp :=
  match s.debugSpan f c with
  | .error r => (s, r)
  | .ok (p, space, off, n) => s.access (debugTarget p space) (fun (s : State) =>
      let s := s.modTile p (fun t => t.upsets ups)
      if busy && space == 1 then (s, Resp.status_ stBusy) else s.debugRead (fnNum f - 1) p space off n)

/-- TILE_WRITE of a command; `stuck` is the number of words written when 1 ms had passed (R407). -/
def State.tileWrite (s : State) (f c : Nat) (stuck : Option Nat) : State × Resp :=
  match s.debugSpan f c with
  | .error r => (s, r)
  | .ok (p, space, off, n) =>
    let v := fieldLE c 32 224
    if space = 5 ∨ space = 7 then (s, Resp.denied 3 18)
    else if space = 2 ∧ (off ≠ 0 ∨ n ≠ 8) then (s, Resp.denied 3 20)
    else s.access (debugTarget p space) (fun (s : State) =>
      match space, stuck with
      | 1, some k => (s.debugWrite p 1 off (8 * min k (n / 8)) v, Resp.status_ stBusy)
      | _, _ => (s.debugWrite p space off n v, Resp.done))

/-- TILE_READ (R407). -/
def execTileRead (f : Nat) (ups : List (Nat × Bool)) (busy : Bool) (s : State) : Out :=
  immediate f 0x0801 s (fun c s => s.tileRead f c ups busy)

/-- TILE_WRITE (R407). -/
def execTileWrite (f : Nat) (stuck : Option Nat) (s : State) : Out := immediate f 0x0802 s (fun c s => s.tileWrite f c stuck)

/-- SYNC_SET: a bound object's count is replaced, and the count it had is returned (R81). -/
def execSyncSet (f : Nat) (s : State) : Out :=
  immediate f 0x0803 s (fun c s =>
    match s.debugTile f (fieldLE c 16 1) (fieldLE c 17 1) with
    | none => (s, Resp.denied 3 16)
    | some p =>
      let h := fieldLE c 18 1
      match (s.tile p).sync.find h with
      | none => (s, Resp.denied 3 18)
      | some _ => s.access (tileTarget p) (fun (s : State) =>
          let t := s.tile p
          match t.sync.find h with
          | none => (s, Resp.denied 3 18)
          | some o => (s.setTile p { t with sync := t.sync.set h { o with count := BitVec.ofNat 16 (fieldLE c 20 2) } }, Resp.ok 2 o.count.toNat)))

/-! ### BEAGLE (R180, R181, R425) -/

/-- BEAGLE of one operation. -/
def beagle (f op : Nat) (s : State) (run : Nat → State → State × Resp) : Out :=
  if 514 ≤ f then .fault .noSuchUnit
  else if (s.underWay f).map (fun c => fieldLE c 16 1) = some op then immediate f 0x0804 s run
  else .next s

/-- An operation on the tile that bytes 17 and 18 name. -/
def beagleTile (f op : Nat) (s : State) (run : Nat → Nat → State → State × Resp) : Out :=
  beagle f op s (fun c s =>
    match s.debugTile f (fieldLE c 17 1) (fieldLE c 18 1) with
    | none => (s, Resp.denied 3 17)
    | some p => s.access (tileTarget p) (run p c))

/-- BEAGLE 0: breakpoint n stands at an instruction-buffer index. -/
def execBeagleSetBreakpoint (f : Nat) (s : State) : Out :=
  beagleTile f 0 s (fun p c s =>
    if 3 < fieldLE c 19 1 then (s, Resp.denied 3 19)
    else if 4095 < fieldLE c 20 2 then (s, Resp.denied 3 20)
    else (s.modTile p (fun t => { t with brk := t.brk.set (fieldLE c 19 1) (fieldLE c 20 2) }), Resp.done))

/-- BEAGLE 1: breakpoint n is cleared. -/
def execBeagleClearBreakpoint (f : Nat) (s : State) : Out :=
  beagleTile f 1 s (fun p c s =>
    if 3 < fieldLE c 19 1 then (s, Resp.denied 3 19) else (s.modTile p (fun t => { t with brk := t.brk.del (fieldLE c 19 1) }), Resp.done))

/-- A stop of the scalar core: at once between instructions or in SWAIT and AWAIT, which begin again on resume; after the
instruction under way in a full queue's stall and in LOCK; at its first instruction before the program begins (R180, R181).
[DEDUCED: log 142] -/
def State.stopCore (s : State) (p : Nat) : State :=
  let t := s.tile p
  if t.faulted || t.core.stop.isSome then s
  else match t.core.act with
    | .run | .swait _ _ | .await _ _ =>
      (s.setTile p { t with core := { t.core with act := .run, stop := some .stop, stopReq := false } }).stopEvent p
    | .issStall _ _ | .lockStall => s.setTile p { t with core := { t.core with stopReq := true } }
    | .off => if t.home.isSome then s.setTile p { t with core := { t.core with stopReq := true } } else s

/-- BEAGLE 2: the scalar core stops. -/
def execBeagleStop (f : Nat) (s : State) : Out := beagleTile f 2 s (fun p _ s => (s.stopCore p, Resp.done))

/-- BEAGLE 3: the scalar core goes on; the instruction at which it stopped does not break again. -/
def execBeagleResume (f : Nat) (s : State) : Out :=
  beagleTile f 3 s (fun p _ s =>
    (s.modTile p (fun t => if t.core.stop.isSome then { t with core := { t.core with stop := none, stepOver := true } } else t), Resp.done))

/-- BEAGLE 4: PC, why the core is stopped, FSTAT and the cycle count. -/
def execBeagleQuery (f : Nat) (s : State) : Out :=
  beagleTile f 4 s (fun p _ s =>
    let t := s.tile p
    let r := if t.faulted then 4 else (t.core.stop.map StopReason.code).getD 0
    (s, Resp.ok 16 (packLE [(0, 2, t.core.pc.toNat), (2, 1, b2n (t.faulted || t.core.stop.isSome) + 2 * r), (4, 4, t.core.fstat.toNat),
      (8, 8, t.core.cycle.toNat)])))

/-- The context that bytes 30 and 31 of a BEAGLE name. -/
def beagleCtx (f c : Nat) : Option Nat := (fnTenant f).bind (fun n => if fieldLE c 30 2 < 4 then some (4 * n + fieldLE c 30 2) else none)

/-- The lock at which an action scheduled for lock `l` is executed: `l`, or the next lock fired after acceptance, with the flag
LATE (R69). An action that travels with the gather (`gather`) needs one that has not left this device yet. -/
def Ctx.scheduled (cx : Ctx) (gather : Bool) (l : Nat) : Nat × Bool :=
  let next := cx.gathering + (if gather && cx.gatherSent then 1 else 0)
  (max l next, decide (l < next))

/-- A scheduled action's outcome: LATE and the lock of its execution (R69). -/
def lateResp (r : Nat × Bool) : Resp := { Resp.ok 6 r.1 with rflags := if r.2 then 2 else 0 }

/-- An action scheduled at a lock of a domain. -/
def beagleLock (f op : Nat) (s : State) (put : Ctx → Nat → Ctx) : Out :=
  beagle f op s (fun c s =>
    match beagleCtx f c with
    | none => (s, Resp.denied 3 30)
    | some x =>
      if (s.ctx x).state = .aborted then (s, Resp.denied 6 0)
      else
        let r := (s.ctx x).scheduled (op == 5) (fieldLE c 24 6)
        (s.modCtx x (fun cx => { put cx r.1 with lateAt := if r.2 then r.1 :: cx.lateAt else cx.lateAt }), lateResp r))

/-- BEAGLE 5: a HALT request for the gather of lock L. -/
def execBeagleScheduleHalt (f : Nat) (s : State) : Out := beagleLock f 5 s (fun cx l => { cx with haltAt := cx.haltAt ++ [l] })

/-- BEAGLE 6: the trace starts at lock L (R426). -/
def execBeagleScheduleTrace (f : Nat) (s : State) : Out := beagleLock f 6 s (fun cx l => { cx with traceAt := some l })

/-! ### The towpath watchdog (R473) -/

/-- The clock domain of an access's target. -/
def Target.clock (t : Target) : Nat :=
  match t.die with
  | some d => d
  | none => if t.pd = 1 then 48 else if t.pd < 14 then 55 else 35 + t.pd

/-- The register access of the command under way: its target, unit, index and offset, and the access itself.
[DEDUCED: log 141] -/
def State.accessOf (s : State) (f c : Nat) : Option (Target × Nat × Nat × Nat × (State → State × Resp)) :=
  let code := fieldLE c 0 2
  if code = 0x0505 ∨ code = 0x0506 then
    (unitTarget (fieldLE c 16 1) (fieldLE c 18 2)).map (fun t =>
      (t, fieldLE c 16 1, fieldLE c 18 2, fieldLE c 20 4, fun (s : State) => if code = 0x0505 then s.regRead c else s.regWrite c))
  else if code = 0x0801 ∨ code = 0x0802 then
    match s.debugSpan f c with
    | .ok (p, space, off, _) =>
      some (debugTarget p space, 0, p, off, fun (s : State) => if code = 0x0801 then s.tileRead f c [] false else s.tileWrite f c none)
    | .error _ => none
  else none

/-- MGMT_ACCESS_WATCHDOG: an access that has hung for 50 µs is broken; the Lockkeeper checks again and repeats it once, and
`again` says that the repeated access hung too (R473). -/
def execMgmtAccessWatchdog (f : Nat) (again : Bool) (s : State) : Out :=
  if 514 ≤ f then .fault .noSuchUnit
  else match s.underWay f with
    | none => .next s
    | some c =>
      if s.now < (s.fn f).acceptedAt + 50000 ∨ (s.refusal f c).isSome then .next s
      else match s.accessOf f c with
        | none => .next s
        | some (t, unit, i, off, run) =>
          if again && s.power.pdOn.getLsbD t.pd then
            let s := (s.pwFlag pwMgmtHang).postPF 0x53 2 (body [(24, 1, t.clock), (25, 1, unit), (26, 2, i), (28, 4, off)])
            .next (s.respond f (Resp.status_ stTenantFault))
          else
            let (s, r) := run s
            .next (s.respond f r)

end Sys2Proof.Machine
end

