-- ==== Sys2Proof/Machine/ScalarCtl.lean ====
section
/-! DEFINITION. Control-register and special-register instructions (R172, R173). -/

namespace Sys2Proof.Machine

/-- A control-register access: the offset is checked, then the access is made (R172). -/
def crAccess (f : Tile → Word → Nat → Tile) (tl : Tile) (w : Word) (pc : Nat) : SRes :=
  let o := tl.ea w
  if 0x3FFF < o then .fault tl cRange 0 o false
  else if o % 8 ≠ 0 then .fault tl cMisaligned 0 o false
  else .done (f tl w o) (pc + 1) 1

/-- CRRL (R172). -/
def execCrrl (t : Nat) (s : State) : Out :=
  scalar t 0x50 [] (crAccess (fun tl w o => tl.setG (iRD w) (BitVec.ofNat 32 (crRead tl (s.member t) o)))) s
/-- CRRH (R172). -/
def execCrrh (t : Nat) (s : State) : Out :=
  scalar t 0x51 [] (crAccess (fun tl w o => tl.setG (iRD w) (BitVec.ofNat 32 (crRead tl (s.member t) o / 2 ^ 32)))) s
/-- CRWL: bits [63:32] stay, and W1C bits there (R172). -/
def execCrwl (t : Nat) (s : State) : Out :=
  scalar t 0x52 [] (crAccess (fun tl w o => crWrite tl o (2 ^ 32 - 1) (tl.gr (iRD w)).toNat)) s
/-- CRWH (R172). -/
def execCrwh (t : Nat) (s : State) : Out :=
  scalar t 0x53 [] (crAccess (fun tl w o => crWrite tl o ((2 ^ 32 - 1) * 2 ^ 32) ((tl.gr (iRD w)).toNat * 2 ^ 32))) s
/-- FCRR (R172). -/
def execFcrr (t : Nat) (s : State) : Out :=
  scalar t 0x54 [] (crAccess (fun tl w o => tl.setF (iRD w) (BitVec.ofNat 64 (crRead tl (s.member t) o)))) s
/-- FCRW (R172). -/
def execFcrw (t : Nat) (s : State) : Out :=
  scalar t 0x55 [] (crAccess (fun tl w o => crWrite tl o (2 ^ 64 - 1) (tl.fr (iRD w)).toNat)) s

/-- SRR: FSTAT, CYCLE_LO (which latches CYCLE_HI) and CYCLE_HI; any other number reads zero (R173). -/
def execSrr (t : Nat) (s : State) : Out :=
  scalar t 0x56 [] (fun tl w pc =>
    let rd := iRD w
    match iIMM w with
    | 0 => .done (tl.setG rd (tl.core.fstat.setWidth 32)) (pc + 1) 1
    | 1 =>
      let c := tl.core.cycle
      let tl := { tl with core := { tl.core with cycleHi := (c >>> 32).setWidth 32 } }
      .done (tl.setG rd (c.setWidth 32)) (pc + 1) 1
    | 2 => .done (tl.setG rd tl.core.cycleHi) (pc + 1) 1
    | _ => .done (tl.setG rd 0) (pc + 1) 1) s

/-- SRW: FSTAT's flags are W1C, the cycle count is read-only; any other number has no effect (R173). -/
def execSrw (t : Nat) (s : State) : Out :=
  scalar t 0x57 [] (fun tl w pc =>
    match iIMM w with
    | 0 => .done { tl with core := { tl.core with fstat := tl.core.fstat &&& ~~~((tl.gr (iRD w)).setWidth 5) } } (pc + 1) 1
    | _ => .done tl (pc + 1) 1) s

end Sys2Proof.Machine
end

