-- ==== Sys2Proof/Machine/ScalarFp.lean ====
section
/-! DEFINITION. Scalar floating-point instructions (R165). -/

namespace Sys2Proof.Machine

/-- The precision P selects. -/
def fpFmt (p : Bool) : Fmt := if p then binary64 else binary32

/-- A floating operand: a binary32 value is read from the low half (R160). -/
def Tile.fval (t : Tile) (p : Bool) (i : Nat) : Fv := decodeFmt (fpFmt p) false ((t.fr i).toNat % 2 ^ (fpFmt p).width)

/-- Flags are ORed into FSTAT (R165). -/
def Tile.orFlags (t : Tile) (fl : Nat) : Tile := { t with core := { t.core with fstat := t.core.fstat ||| BitVec.ofNat 5 fl } }

/-- A result written to f[D], a binary32 one with zeros above it (R160), and its flags. -/
def fpDone (cost : Nat) (tl : Tile) (w : Word) (pc : Nat) (r : Nat × Nat) : SRes :=
  .done ((tl.setF (iRD w) (BitVec.ofNat 64 r.1)).orFlags r.2) (pc + 1) cost

/-- An operation on f[A] and f[B] at precision P, rounded once by RM with SAT = 0 (R109, R165). -/
def fpBin (cost : Bool → Nat) (f : Nat → Fv → Fv → Fv × Nat) (tl : Tile) (w : Word) (pc : Nat) : SRes :=
  fpDone (cost (iP w)) tl w pc
    (finish (fpFmt (iP w)) (iRM w) false (f (iRM w) (tl.fval (iP w) (iRA w)) (tl.fval (iP w) (iRB w))))

/-- Sign reversed. -/
def Fv.negate : Fv → Fv
  | .nan s => .nan s
  | .inf n => .inf (!n)
  | .fin n m e => .fin (!n) m e

/-- f[A] × f[B] + f[C] or f[C] − f[A] × f[B], one rounding (R165). -/
def fpFma (neg : Bool) (tl : Tile) (w : Word) (pc : Nat) : SRes :=
  let a := tl.fval (iP w) (iRA w)
  fpDone 4 tl w pc (finish (fpFmt (iP w)) (iRM w) false
    (fvFma (iRM w) (if neg then a.negate else a) (tl.fval (iP w) (iRB w)) (tl.fval (iP w) (iC w))))

/-- FADD (R165). -/
def execFadd (t : Nat) (s : State) : Out := scalar t 0x30 [] (fpBin (fun _ => 4) fvAdd) s
/-- FSUB (R165). -/
def execFsub (t : Nat) (s : State) : Out := scalar t 0x31 [] (fpBin (fun _ => 4) (fun rm a b => fvAdd rm a b.negate)) s
/-- FMUL (R165). -/
def execFmul (t : Nat) (s : State) : Out := scalar t 0x32 [] (fpBin (fun _ => 4) (fun _ a b => fvMul a b)) s
/-- FFMA (R165). -/
def execFfma (t : Nat) (s : State) : Out := scalar t 0x33 [] (fpFma false) s
/-- FFNMA (R165). -/
def execFfnma (t : Nat) (s : State) : Out := scalar t 0x34 [] (fpFma true) s
/-- FDIV (R165). -/
def execFdiv (t : Nat) (s : State) : Out := scalar t 0x35 [] (fpBin (fun p => if p then 24 else 12) (fun _ a b => fvDiv a b)) s
/-- FSQRT (R165). -/
def execFsqrt (t : Nat) (s : State) : Out :=
  scalar t 0x36 [] (fun tl w pc => fpDone (if iP w then 24 else 12) tl w pc
    (finish (fpFmt (iP w)) (iRM w) false (fvSqrt (tl.fval (iP w) (iRA w))))) s
/-- FMIN (R117). -/
def execFmin (t : Nat) (s : State) : Out := scalar t 0x37 [] (fpBin (fun _ => 4) (fun _ a b => fvMinMax false a b)) s
/-- FMAX (R117). -/
def execFmax (t : Nat) (s : State) : Out := scalar t 0x38 [] (fpBin (fun _ => 4) (fun _ a b => fvMinMax true a b)) s

/-- FCVT: from the other precision to P (R114, R165). -/
def execFcvt (t : Nat) (s : State) : Out :=
  scalar t 0x39 [] (fun tl w pc => fpDone 2 tl w pc
    (convert (fpFmt (iP w)) (iRM w) false 0 (tl.fval (!iP w) (iRA w)))) s

/-- FCMP (R117, R165). -/
def execFcmp (t : Nat) (s : State) : Out :=
  scalar t 0x3A [] (fun tl w pc =>
    let r := fvCmp (iC w % 4) (tl.fval (iP w) (iRA w)) (tl.fval (iP w) (iRB w))
    .done ((tl.setG (iRD w) (if r.1 then 1 else 0)).orFlags r.2) (pc + 1) 2) s

/-- FCVTI: to s32 or u32, a NaN to 0, out of range to the nearer bound (R165). -/
def execFcvti (t : Nat) (s : State) : Out :=
  scalar t 0x3B [] (fun tl w pc =>
    let v := tl.fval (iP w) (iRA w)
    let r := if iX w then toIntRange 0 (2 ^ 32 - 1) (iRM w) 0 v else toIntRange (-2 ^ 31) (2 ^ 31 - 1) (iRM w) 0 v
    .done ((tl.setG (iRD w) (BitVec.ofInt 32 r.1)).orFlags r.2) (pc + 1) 2) s

/-- FCVTF: from s32 or u32, rounded to P (R165). -/
def execFcvtf (t : Nat) (s : State) : Out :=
  scalar t 0x3C [] (fun tl w pc =>
    let a := tl.gr (iRA w)
    let i : Int := if iX w then a.toNat else a.toInt
    fpDone 2 tl w pc (roundTo (fpFmt (iP w)) (iRM w) false 0 (decide (i < 0)) i.natAbs 0)) s

/-- FMVGF: one half of f[D] from g[A] (R165). -/
def execFmvgf (t : Nat) (s : State) : Out :=
  scalar t 0x3D [] (fun tl w pc =>
    let old := (tl.fr (iRD w)).toNat
    let a := (tl.gr (iRA w)).toNat
    let v := if iX w then old % 2 ^ 32 + a * 2 ^ 32 else old / 2 ^ 32 * 2 ^ 32 + a
    .done (tl.setF (iRD w) (BitVec.ofNat 64 v)) (pc + 1) 1) s

/-- FMVFG: g[D] from one half of f[A] (R165). -/
def execFmvfg (t : Nat) (s : State) : Out :=
  scalar t 0x3E [] (fun tl w pc =>
    let a := (tl.fr (iRA w)).toNat
    .done (tl.setG (iRD w) (BitVec.ofNat 32 (if iX w then a / 2 ^ 32 else a))) (pc + 1) 1) s

end Sys2Proof.Machine
end

