-- ==== Sys2Proof/Machine/ScalarInt.lean ====
section
/-! DEFINITION. Scalar integer arithmetic, branches and jumps (R161, R162). -/

namespace Sys2Proof.Machine

/-- An ALU function of two words (R161, R162). -/
def aluOp (fn : Nat) (a b : Word) : Word :=
  match fn with
  | 0x000 => a + b
  | 0x001 => a - b
  | 0x002 => a &&& b
  | 0x003 => a ||| b
  | 0x004 => a ^^^ b
  | 0x005 => a <<< (b.toNat % 32)
  | 0x006 => a >>> (b.toNat % 32)
  | 0x007 => a.sshiftRight (b.toNat % 32)
  | 0x008 => if a.slt b then 1 else 0
  | 0x009 => if a.ult b then 1 else 0
  | 0x00A => if a.slt b then a else b
  | 0x00B => if a.slt b then b else a
  | 0x00C => if a.ult b then a else b
  | 0x00D => if a.ult b then b else a
  | 0x010 => a * b
  | 0x011 => BitVec.ofInt 32 (a.toInt * b.toInt / 2 ^ 32)
  | 0x012 => BitVec.ofNat 32 (a.toNat * b.toNat / 2 ^ 32)
  | 0x014 => if b = 0 then BitVec.allOnes 32 else BitVec.ofInt 32 (Int.tdiv a.toInt b.toInt)
  | 0x015 => if b = 0 then BitVec.allOnes 32 else BitVec.ofNat 32 (a.toNat / b.toNat)
  | 0x016 => if b = 0 then a else BitVec.ofInt 32 (Int.tmod a.toInt b.toInt)
  | 0x017 => if b = 0 then a else BitVec.ofNat 32 (a.toNat % b.toNat)
  | _ => 0

/-- Cycles of an ALU function (R163). -/
def aluCost (fn : Nat) : Nat := if 0x014 ≤ fn then 34 else if 0x010 ≤ fn then 3 else 1

/-- SHI's function: IMM[14:13] selects SLL, SRL or SRA by IMM[4:0] (R161). -/
def shiOp (w : Word) (a : Word) : Word :=
  match bits w.toNat 13 2 with
  | 0 => aluOp 0x005 a (BitVec.ofNat 32 (bits w.toNat 0 5))
  | 1 => aluOp 0x006 a (BitVec.ofNat 32 (bits w.toNat 0 5))
  | _ => aluOp 0x007 a (BitVec.ofNat 32 (bits w.toNat 0 5))

/-- A zero-extended immediate. -/
def iZImm (w : Word) : Word := BitVec.ofNat 32 (iIMM w)

/-- NOP (R161). -/
def execNop (t : Nat) (s : State) : Out := scalar t 0x01 [] (fun tl _ pc => .done tl (pc + 1) 1) s

/-- ILLEGAL_INSTRUCTION: any word the core does not execute takes the precise fault (R161). -/
def execIllegalInstruction (t : Nat) (s : State) : Out :=
  if numTiles ≤ t then .fault .noSuchUnit
  else
    let tl := s.tile t
    if s.coreReady t && !legal tl.instr then .next (s.tileFault t cIllegal 0 0 tl.core.pc.toNat 0 false) else .next s

/-- ALU (R161, R162). -/
def execAlu (t : Nat) (s : State) : Out :=
  scalar t 0x02 [] (fun tl w pc =>
    .done (tl.setG (iRD w) (aluOp (iFN w) (tl.gr (iRA w)) (tl.gr (iRB w)))) (pc + 1) (aluCost (iFN w))) s

/-- ADDI (R161). -/
def execAddi (t : Nat) (s : State) : Out := scalar t 0x03 [] (toG 1 (fun tl w => tl.gr (iRA w) + iSImm w)) s
/-- ANDI (R161). -/
def execAndi (t : Nat) (s : State) : Out := scalar t 0x04 [] (toG 1 (fun tl w => tl.gr (iRA w) &&& iZImm w)) s
/-- ORI (R161). -/
def execOri (t : Nat) (s : State) : Out := scalar t 0x05 [] (toG 1 (fun tl w => tl.gr (iRA w) ||| iZImm w)) s
/-- XORI (R161). -/
def execXori (t : Nat) (s : State) : Out := scalar t 0x06 [] (toG 1 (fun tl w => tl.gr (iRA w) ^^^ iZImm w)) s
/-- SLTI (R161). -/
def execSlti (t : Nat) (s : State) : Out := scalar t 0x07 [] (toG 1 (fun tl w => aluOp 0x008 (tl.gr (iRA w)) (iSImm w))) s
/-- SLTIU (R161). -/
def execSltiu (t : Nat) (s : State) : Out := scalar t 0x08 [] (toG 1 (fun tl w => aluOp 0x009 (tl.gr (iRA w)) (iSImm w))) s
/-- SHI (R161). -/
def execShi (t : Nat) (s : State) : Out := scalar t 0x09 [] (toG 1 (fun tl w => shiOp w (tl.gr (iRA w)))) s
/-- LUI (R161). -/
def execLui (t : Nat) (s : State) : Out := scalar t 0x0A [] (toG 1 (fun _ w => BitVec.ofNat 32 (iIMM20 w * 2 ^ 12))) s

/-- A branch: taken, PC ← PC + sext(OFF); the modulus is PC's width (R160, R161). -/
def branch (rel : Word → Word → Bool) (tl : Tile) (w : Word) (pc : Nat) : SRes :=
  if rel (tl.gr (iRD w)) (tl.gr (iRA w)) then .done tl (wrapInt (pc + sext (iIMM w) 15) 12) 2 else .done tl (pc + 1) 1

/-- BEQ (R161). -/
def execBeq (t : Nat) (s : State) : Out := scalar t 0x20 [] (branch (fun a b => a == b)) s
/-- BNE (R161). -/
def execBne (t : Nat) (s : State) : Out := scalar t 0x21 [] (branch (fun a b => a != b)) s
/-- BLT (R161). -/
def execBlt (t : Nat) (s : State) : Out := scalar t 0x22 [] (branch (fun a b => a.slt b)) s
/-- BGE (R161). -/
def execBge (t : Nat) (s : State) : Out := scalar t 0x23 [] (branch (fun a b => !a.slt b)) s
/-- BLTU (R161). -/
def execBltu (t : Nat) (s : State) : Out := scalar t 0x24 [] (branch (fun a b => a.ult b)) s
/-- BGEU (R161). -/
def execBgeu (t : Nat) (s : State) : Out := scalar t 0x25 [] (branch (fun a b => !a.ult b)) s

/-- The return index of a jump: PC + 1 modulo 4,096 (R160). -/
def linkIndex (pc : Nat) : Word := BitVec.ofNat 32 ((pc + 1) % 4096)

/-- JAL (R161). -/
def execJal (t : Nat) (s : State) : Out :=
  scalar t 0x26 [] (fun tl w pc => .done (tl.setG (iRD w) (linkIndex pc)) (bits w.toNat 0 12) 2) s

/-- JALR: the target is read before g[RD] is written (R161). -/
def execJalr (t : Nat) (s : State) : Out :=
  scalar t 0x27 [] (fun tl w pc => .done (tl.setG (iRD w) (linkIndex pc)) (tl.ea w % 4096) 2) s

end Sys2Proof.Machine
end

