-- ==== Sys2Proof/Machine/ScalarMem.lean ====
section
/-! DEFINITION. Scalar loads and stores (R164). -/

namespace Sys2Proof.Machine

/-- A load of `size` bytes, its bytes handed to `put`; a faulting load leaves its destination unchanged (R164). -/
def loadTo (size : Nat) (put : Tile → Nat → Nat → Tile) (tl : Tile) (w : Word) (pc : Nat) : SRes :=
  match tl.load (tl.ea w) size with
  | .ok tl v => .done (put tl (iRD w) v) (pc + 1) 2
  | .bad tl cause addr hw => .fault tl cause 0 addr hw

/-- A store of 1, 2 or 4 bytes: the word is read and checked first, and a failing word is left as it is (R92, R164). -/
def storeFrom (size : Nat) (val : Tile → Nat → Nat) (tl : Tile) (w : Word) (pc : Nat) : SRes :=
  match tl.load (tl.ea w) size with
  | .ok tl' _ => .done (tl'.writePart (tl.ea w) size (val tl' (iRD w))) (pc + 1) 2
  | .bad tl cause addr hw => .fault tl cause 0 addr hw

def putS (n : Nat) (tl : Tile) (rd v : Nat) : Tile := tl.setG rd (BitVec.ofInt 32 (sext v n))
def putZ (tl : Tile) (rd v : Nat) : Tile := tl.setG rd (BitVec.ofNat 32 v)
def putF (tl : Tile) (rd v : Nat) : Tile := tl.setF rd (BitVec.ofNat 64 v)
def valG (tl : Tile) (rs : Nat) : Nat := (tl.gr rs).toNat
def valF (tl : Tile) (rs : Nat) : Nat := (tl.fr rs).toNat

/-- LB (R164). -/
def execLb (t : Nat) (ups : List (Nat × Bool)) (s : State) : Out := scalar t 0x10 ups (loadTo 1 (putS 8)) s
/-- LBU (R164). -/
def execLbu (t : Nat) (ups : List (Nat × Bool)) (s : State) : Out := scalar t 0x11 ups (loadTo 1 putZ) s
/-- LH (R164). -/
def execLh (t : Nat) (ups : List (Nat × Bool)) (s : State) : Out := scalar t 0x12 ups (loadTo 2 (putS 16)) s
/-- LHU (R164). -/
def execLhu (t : Nat) (ups : List (Nat × Bool)) (s : State) : Out := scalar t 0x13 ups (loadTo 2 putZ) s
/-- LW (R164). -/
def execLw (t : Nat) (ups : List (Nat × Bool)) (s : State) : Out := scalar t 0x14 ups (loadTo 4 putZ) s
/-- FLW: the upper half is zero (R164). -/
def execFlw (t : Nat) (ups : List (Nat × Bool)) (s : State) : Out := scalar t 0x15 ups (loadTo 4 putF) s
/-- FLD (R164). -/
def execFld (t : Nat) (ups : List (Nat × Bool)) (s : State) : Out := scalar t 0x16 ups (loadTo 8 putF) s

/-- SB (R164, R92). -/
def execSb (t : Nat) (ups : List (Nat × Bool)) (s : State) : Out := scalar t 0x18 ups (storeFrom 1 valG) s
/-- SH (R164, R92). -/
def execSh (t : Nat) (ups : List (Nat × Bool)) (s : State) : Out := scalar t 0x19 ups (storeFrom 2 valG) s
/-- SW (R164, R92). -/
def execSw (t : Nat) (ups : List (Nat × Bool)) (s : State) : Out := scalar t 0x1A ups (storeFrom 4 valG) s
/-- FSW (R164, R92). -/
def execFsw (t : Nat) (ups : List (Nat × Bool)) (s : State) : Out := scalar t 0x1B ups (storeFrom 4 valF) s

/-- FSD: a whole word with new check bits, the old word not read (R93, R164). -/
def execFsd (t : Nat) (s : State) : Out :=
  scalar t 0x1C [] (fun tl w pc =>
    let ea := tl.ea w
    if 2 ^ 22 ≤ ea then .fault tl cRange 0 ea false
    else if ea % 8 ≠ 0 then .fault tl cMisaligned 0 ea false
    else .done (tl.writeWhole ea 8 (valF tl (iRD w))) (pc + 1) 1) s

end Sys2Proof.Machine
end

