-- ==== Sys2Proof/Machine/SpdmResponder.lean ====
section
/-! DEFINITION. The SPDM 1.2 responder of each PCIe function (R368 to R370): negotiation, certificates, measurements and
sessions. Answers are kept as what they say; their signatures are left out. -/

namespace Sys2Proof.Machine

/-- A request to the responder of a function that exists on a device that answers. [PRESUMED: log 113] -/
def spdm (f : Nat) (s : State) (run : Spdm → State → State) : Out :=
  if 514 ≤ f then .fault .noSuchUnit
  else if !s.fnExists f ∨ s.lk.state ≠ .ready then .next s
  else .next (run (s.fn f).spdm s)

/-- A request that needs negotiation to have come to stage `n`. -/
def spdmAt (f n : Nat) (s : State) (run : Spdm → State → State) : Out :=
  spdm f s (fun p s => if p.stage < n then s.spdmErr f .unexpectedRequest else run p s)

/-- GET_VERSION: negotiation and every session begin again. [PRESUMED: log 114] -/
def execGetVersion (f : Nat) (s : State) : Out :=
  spdm f s (fun _ s => (s.modFn f (fun x => { x with spdm := { x.spdm with stage := 1, sessions := [] } })).spdmSay f (.version 0x12))

/-- GET_CAPABILITIES: the capabilities of R368. -/
def execGetCapabilities (f : Nat) (s : State) : Out :=
  spdmAt f 1 s (fun p s =>
    if p.stage ≠ 1 then s.spdmErr f .unexpectedRequest
    else (s.modFn f (fun x => { x with spdm := { x.spdm with stage := 2 } })).spdmSay f (.capabilities spdmCaps))

/-- NEGOTIATE_ALGORITHMS: the one choice of each kind (R368). -/
def execNegotiateAlgorithms (f : Nat) (s : State) : Out :=
  spdmAt f 2 s (fun p s =>
    if p.stage ≠ 2 then s.spdmErr f .unexpectedRequest
    else (s.modFn f (fun x => { x with spdm := { x.spdm with stage := 3 } })).spdmSay f (.algorithms .ecdsaP384 .sha384 .sha384 .secp384r1 .aes256Gcm))

/-- GET_DIGESTS: the digest of the chain in slot 0. -/
def execGetDigests (f : Nat) (s : State) : Out := spdmAt f 3 s (fun _ s => s.spdmSay f (.digests [(0, digestNum (sha384 s.certChain.flatten))]))

/-- GET_CERTIFICATE of a slot: slot 0 alone holds certificates. -/
def execGetCertificate (f slot : Nat) (s : State) : Out :=
  spdmAt f 3 s (fun _ s => if slot = 0 then s.spdmSay f (.certificate s.certChain) else s.spdmErr f .invalidRequest)

/-- CHALLENGE of slot 0: an answer with a nonce. -/
def execChallenge (f slot : Nat) (s : State) : Out :=
  spdmAt f 3 s (fun _ s => if slot ≠ 0 then s.spdmErr f .invalidRequest else s.spdmAsk f .challenge)

/-- GET_MEASUREMENTS of one index, or of every one that the function offers with index 255; 0 asks for their number alone. -/
def execGetMeasurements (f index : Nat) (s : State) : Out :=
  spdmAt f 3 s (fun _ s =>
    if index = 0 ∨ index = 255 ∨ (s.measurement f index).isSome then s.spdmAsk f (.measurements index) else s.spdmErr f .invalidRequest)

/-! ### Sessions -/

/-- KEY_EXCHANGE: a session begins with a secret of its own; at most four per function. -/
def execKeyExchange (f : Nat) (s : State) : Out :=
  spdmAt f 3 s (fun p s => if p.freeSession.isNone then s.spdmErr f .sessionLimit else s.spdmAsk f .keyExchange)

/-- A request inside a session, established or still to be finished. -/
def spdmSession (f i : Nat) (finished : Bool) (s : State) (run : SpdmSession → State → State) : Out :=
  spdmAt f 3 s (fun p s =>
    match p.sessions.find i with
    | some x => if x.finished = finished then run x s else s.spdmErr f .unexpectedRequest
    | none => s.spdmErr f .invalidRequest)

def State.setSession (s : State) (f i : Nat) (v : SpdmSession) : State :=
  s.modFn f (fun x => { x with spdm := { x.spdm with sessions := x.spdm.sessions.set i v } })

/-- FINISH: the session is established. -/
def execFinish (f session : Nat) (s : State) : Out :=
  spdmSession f session false s (fun x s => (s.setSession f session { x with finished := true }).spdmSay f (.finish session))

/-- HEARTBEAT of an established session. -/
def execHeartbeat (f session : Nat) (s : State) : Out := spdmSession f session true s (fun _ s => s.spdmSay f (.heartbeat session))

/-- KEY_UPDATE of an established session. -/
def execKeyUpdate (f session : Nat) (s : State) : Out :=
  spdmSession f session true s (fun x s => (s.setSession f session { x with updates := x.updates + 1 }).spdmSay f (.keyUpdate session))

/-- END_SESSION of an established session. -/
def execEndSession (f session : Nat) (s : State) : Out :=
  spdmSession f session true s (fun _ s =>
    (s.modFn f (fun x => { x with spdm := { x.spdm with sessions := x.spdm.sessions.del session } })).spdmSay f (.endSession session))

end Sys2Proof.Machine
end

