-- ==== Sys2Proof/Machine/Dispatch.lean ====
section
/-! DEFINITION. Which meaning each command has: one arm per constructor, one direct call per arm. -/

namespace Sys2Proof.Machine

def exec (i : Instr) (s : State) : Host.Outcome State Fault Refusal :=
  match i with
  | .nop t => Sys2Proof.Machine.execNop t s
  | .illegalInstruction t => Sys2Proof.Machine.execIllegalInstruction t s
  | .alu t => Sys2Proof.Machine.execAlu t s
  | .addi t => Sys2Proof.Machine.execAddi t s
  | .andi t => Sys2Proof.Machine.execAndi t s
  | .ori t => Sys2Proof.Machine.execOri t s
  | .xori t => Sys2Proof.Machine.execXori t s
  | .slti t => Sys2Proof.Machine.execSlti t s
  | .sltiu t => Sys2Proof.Machine.execSltiu t s
  | .shi t => Sys2Proof.Machine.execShi t s
  | .lui t => Sys2Proof.Machine.execLui t s
  | .lb t ups => Sys2Proof.Machine.execLb t ups s
  | .lbu t ups => Sys2Proof.Machine.execLbu t ups s
  | .lh t ups => Sys2Proof.Machine.execLh t ups s
  | .lhu t ups => Sys2Proof.Machine.execLhu t ups s
  | .lw t ups => Sys2Proof.Machine.execLw t ups s
  | .flw t ups => Sys2Proof.Machine.execFlw t ups s
  | .fld t ups => Sys2Proof.Machine.execFld t ups s
  | .sb t ups => Sys2Proof.Machine.execSb t ups s
  | .sh t ups => Sys2Proof.Machine.execSh t ups s
  | .sw t ups => Sys2Proof.Machine.execSw t ups s
  | .fsw t ups => Sys2Proof.Machine.execFsw t ups s
  | .fsd t => Sys2Proof.Machine.execFsd t s
  | .beq t => Sys2Proof.Machine.execBeq t s
  | .bne t => Sys2Proof.Machine.execBne t s
  | .blt t => Sys2Proof.Machine.execBlt t s
  | .bge t => Sys2Proof.Machine.execBge t s
  | .bltu t => Sys2Proof.Machine.execBltu t s
  | .bgeu t => Sys2Proof.Machine.execBgeu t s
  | .jal t => Sys2Proof.Machine.execJal t s
  | .jalr t => Sys2Proof.Machine.execJalr t s
  | .fadd t => Sys2Proof.Machine.execFadd t s
  | .fsub t => Sys2Proof.Machine.execFsub t s
  | .fmul t => Sys2Proof.Machine.execFmul t s
  | .ffma t => Sys2Proof.Machine.execFfma t s
  | .ffnma t => Sys2Proof.Machine.execFfnma t s
  | .fdiv t => Sys2Proof.Machine.execFdiv t s
  | .fsqrt t => Sys2Proof.Machine.execFsqrt t s
  | .fmin t => Sys2Proof.Machine.execFmin t s
  | .fmax t => Sys2Proof.Machine.execFmax t s
  | .fcvt t => Sys2Proof.Machine.execFcvt t s
  | .fcmp t => Sys2Proof.Machine.execFcmp t s
  | .fcvti t => Sys2Proof.Machine.execFcvti t s
  | .fcvtf t => Sys2Proof.Machine.execFcvtf t s
  | .fmvgf t => Sys2Proof.Machine.execFmvgf t s
  | .fmvfg t => Sys2Proof.Machine.execFmvfg t s
  | .iss t ups => Sys2Proof.Machine.execIss t ups s
  | .orderEnqueue t ups => Sys2Proof.Machine.execOrderEnqueue t ups s
  | .swait t => Sys2Proof.Machine.execSwait t s
  | .swaitSatisfied t => Sys2Proof.Machine.execSwaitSatisfied t s
  | .ssig t => Sys2Proof.Machine.execSsig t s
  | .stry t => Sys2Proof.Machine.execStry t s
  | .await t => Sys2Proof.Machine.execAwait t s
  | .awaitSatisfied t => Sys2Proof.Machine.execAwaitSatisfied t s
  | .atest t => Sys2Proof.Machine.execAtest t s
  | .ifill t ups => Sys2Proof.Machine.execIfill t ups s
  | .lock t => Sys2Proof.Machine.execLock t s
  | .brk t => Sys2Proof.Machine.execBrk t s
  | .crrl t => Sys2Proof.Machine.execCrrl t s
  | .crrh t => Sys2Proof.Machine.execCrrh t s
  | .crwl t => Sys2Proof.Machine.execCrwl t s
  | .crwh t => Sys2Proof.Machine.execCrwh t s
  | .fcrr t => Sys2Proof.Machine.execFcrr t s
  | .fcrw t => Sys2Proof.Machine.execFcrw t s
  | .srr t => Sys2Proof.Machine.execSrr t s
  | .srw t => Sys2Proof.Machine.execSrw t s
  | .breakpointStop t => Sys2Proof.Machine.execBreakpointStop t s
  | .orderLeavesHead t e => Sys2Proof.Machine.execOrderLeavesHead t e s
  | .orderBegin t e parity => Sys2Proof.Machine.execOrderBegin t e parity s
  | .orderSignal t e => Sys2Proof.Machine.execOrderSignal t e s
  | .mxeNop t => Sys2Proof.Machine.execMxeNop t s
  | .mxeLdtd t ups => Sys2Proof.Machine.execMxeLdtd t ups s
  | .ldb t ups => Sys2Proof.Machine.execLdb t ups s
  | .mma t ups => Sys2Proof.Machine.execMma t ups s
  | .drain t => Sys2Proof.Machine.execDrain t s
  | .ldacc t ups => Sys2Proof.Machine.execLdacc t ups s
  | .mxeStat t => Sys2Proof.Machine.execMxeStat t s
  | .vxeNop t => Sys2Proof.Machine.execVxeNop t s
  | .vxeLdtd t ups => Sys2Proof.Machine.execVxeLdtd t ups s
  | .ldk t ups => Sys2Proof.Machine.execLdk t ups s
  | .vxeStat t => Sys2Proof.Machine.execVxeStat t s
  | .vew t ups => Sys2Proof.Machine.execVew t ups s
  | .vtr t ups => Sys2Proof.Machine.execVtr t ups s
  | .vred t ups => Sys2Proof.Machine.execVred t ups s
  | .vsample t ups => Sys2Proof.Machine.execVsample t ups s
  | .vrand t ups => Sys2Proof.Machine.execVrand t ups s
  | .xeNop t => Sys2Proof.Machine.execXeNop t s
  | .send t => Sys2Proof.Machine.execSend t s
  | .msend t => Sys2Proof.Machine.execMsend t s
  | .comb t => Sys2Proof.Machine.execComb t s
  | .recv t => Sys2Proof.Machine.execRecv t s
  | .recvComplete t => Sys2Proof.Machine.execRecvComplete t s
  | .pull t => Sys2Proof.Machine.execPull t s
  | .flitInject t ups => Sys2Proof.Machine.execFlitInject t ups s
  | .routerForward t o hdr bad => Sys2Proof.Machine.execRouterForward t o hdr bad s
  | .creditReturn t o lane => Sys2Proof.Machine.execCreditReturn t o lane s
  | .combine t ch ce => Sys2Proof.Machine.execCombine t ch ce s
  | .flitCommit t ce => Sys2Proof.Machine.execFlitCommit t ce s
  | .wharfTakeFlit g => Sys2Proof.Machine.execWharfTakeFlit g s
  | .streamRead g => Sys2Proof.Machine.execStreamRead g s
  | .streamFence g => Sys2Proof.Machine.execStreamFence g s
  | .fenceComplete g => Sys2Proof.Machine.execFenceComplete g s
  | .holdWriteFlit g => Sys2Proof.Machine.execHoldWriteFlit g s
  | .portOutFlit g => Sys2Proof.Machine.execPortOutFlit g s
  | .bargeSend ep dst hdr bad => Sys2Proof.Machine.execBargeSend ep dst hdr bad s
  | .rdReq src k => Sys2Proof.Machine.execRdReq src k s
  | .mergeWindowEnd k => Sys2Proof.Machine.execMergeWindowEnd k s
  | .wr src k => Sys2Proof.Machine.execWr src k s
  | .accWr src k => Sys2Proof.Machine.execAccWr src k s
  | .holdAccessSlot k tenant err => Sys2Proof.Machine.execHoldAccessSlot k tenant err s
  | .patrolScrub line err => Sys2Proof.Machine.execPatrolScrub line err s
  | .rdRpl src g => Sys2Proof.Machine.execRdRpl src g s
  | .wrAck src g => Sys2Proof.Machine.execWrAck src g s
  | .portIn src g => Sys2Proof.Machine.execPortIn src g s
  | .pullGrant g => Sys2Proof.Machine.execPullGrant g s
  | .huuArrival c h waited => Sys2Proof.Machine.execHuuArrival c h waited s
  | .factorPass n b err => Sys2Proof.Machine.execFactorPass n b err s
  | .updateBlock n b err => Sys2Proof.Machine.execUpdateBlock n b err s
  | .lockkeeperArrival c => Sys2Proof.Machine.execLockkeeperArrival c s
  | .delayedScaleWrite c slot => Sys2Proof.Machine.execDelayedScaleWrite c slot s
  | .lockFire c => Sys2Proof.Machine.execLockFire c s
  | .lockRelease c m => Sys2Proof.Machine.execLockRelease c m s
  | .lockOverdue c => Sys2Proof.Machine.execLockOverdue c s
  | .gatherMarker p => Sys2Proof.Machine.execGatherMarker p s
  | .releaseMarker p => Sys2Proof.Machine.execReleaseMarker p s
  | .hello f => Sys2Proof.Machine.execHello f s
  | .goodbye f => Sys2Proof.Machine.execGoodbye f s
  | .eqConfig f => Sys2Proof.Machine.execEqConfig f s
  | .readResult f => Sys2Proof.Machine.execReadResult f s
  | .getRandom f => Sys2Proof.Machine.execGetRandom f s
  | .tenantSetup f => Sys2Proof.Machine.execTenantSetup f s
  | .tenantReset f => Sys2Proof.Machine.execTenantReset f s
  | .tenantResetComplete n scrub => Sys2Proof.Machine.execTenantResetComplete n scrub s
  | .tenantRelease f scrub => Sys2Proof.Machine.execTenantRelease f scrub s
  | .releaseBasinTimeout n scrub => Sys2Proof.Machine.execReleaseBasinTimeout n scrub s
  | .tenantQuery f => Sys2Proof.Machine.execTenantQuery f s
  | .tenantPolicy f => Sys2Proof.Machine.execTenantPolicy f s
  | .load f basinGib bound hw bus => Sys2Proof.Machine.execLoad f basinGib bound hw bus s
  | .seedSet f => Sys2Proof.Machine.execSeedSet f s
  | .seedDraw f => Sys2Proof.Machine.execSeedDraw f s
  | .updRead f => Sys2Proof.Machine.execUpdRead f s
  | .exportShards f bus => Sys2Proof.Machine.execExportShards f bus s
  | .importShards f bus => Sys2Proof.Machine.execImportShards f bus s
  | .permute f bus agree boxes others => Sys2Proof.Machine.execPermute f bus agree boxes others s
  | .domainRead f => Sys2Proof.Machine.execDomainRead f s
  | .domainWrite f => Sys2Proof.Machine.execDomainWrite f s
  | .domainStart f => Sys2Proof.Machine.execDomainStart f s
  | .domainForm f => Sys2Proof.Machine.execDomainForm f s
  | .domainStage f bus => Sys2Proof.Machine.execDomainStage f bus s
  | .domainWithdraw f => Sys2Proof.Machine.execDomainWithdraw f s
  | .domainResume f => Sys2Proof.Machine.execDomainResume f s
  | .domainAbort f => Sys2Proof.Machine.execDomainAbort f s
  | .domainGrant f => Sys2Proof.Machine.execDomainGrant f s
  | .fabricConfig f => Sys2Proof.Machine.execFabricConfig f s
  | .setProfile f => Sys2Proof.Machine.execSetProfile f s
  | .powerCap f => Sys2Proof.Machine.execPowerCap f s
  | .slotRepack f => Sys2Proof.Machine.execSlotRepack f s
  | .entropyReset f => Sys2Proof.Machine.execEntropyReset f s
  | .regRead f => Sys2Proof.Machine.execRegRead f s
  | .regWrite f => Sys2Proof.Machine.execRegWrite f s
  | .setDevPolicy f => Sys2Proof.Machine.execSetDevPolicy f s
  | .telemetryComputeGroup f => Sys2Proof.Machine.execTelemetryComputeGroup f s
  | .telemetryCoolant f => Sys2Proof.Machine.execTelemetryCoolant f s
  | .telemetryMonitor f => Sys2Proof.Machine.execTelemetryMonitor f s
  | .telemetryIdleTotals f => Sys2Proof.Machine.execTelemetryIdleTotals f s
  | .telemetryStream f => Sys2Proof.Machine.execTelemetryStream f s
  | .telemetryExpansion f => Sys2Proof.Machine.execTelemetryExpansion f s
  | .fwBegin f => Sys2Proof.Machine.execFwBegin f s
  | .fwBlock f bus => Sys2Proof.Machine.execFwBlock f bus s
  | .fwCommit f flips => Sys2Proof.Machine.execFwCommit f flips s
  | .fwStatus f => Sys2Proof.Machine.execFwStatus f s
  | .fwUpdateIdleTimeout => Sys2Proof.Machine.execFwUpdateIdleTimeout s
  | .timeSet f => Sys2Proof.Machine.execTimeSet f s
  | .timeGet f => Sys2Proof.Machine.execTimeGet f s
  | .calRead f => Sys2Proof.Machine.execCalRead f s
  | .calWrite f => Sys2Proof.Machine.execCalWrite f s
  | .calRestoreFactory f => Sys2Proof.Machine.execCalRestoreFactory f s
  | .calApply => Sys2Proof.Machine.execCalApply s
  | .entropySample f raw bus => Sys2Proof.Machine.execEntropySample f raw bus s
  | .tileRead f ups busy => Sys2Proof.Machine.execTileRead f ups busy s
  | .tileWrite f stuck => Sys2Proof.Machine.execTileWrite f stuck s
  | .syncSet f => Sys2Proof.Machine.execSyncSet f s
  | .beagleSetBreakpoint f => Sys2Proof.Machine.execBeagleSetBreakpoint f s
  | .beagleClearBreakpoint f => Sys2Proof.Machine.execBeagleClearBreakpoint f s
  | .beagleStop f => Sys2Proof.Machine.execBeagleStop f s
  | .beagleResume f => Sys2Proof.Machine.execBeagleResume f s
  | .beagleQuery f => Sys2Proof.Machine.execBeagleQuery f s
  | .beagleScheduleHalt f => Sys2Proof.Machine.execBeagleScheduleHalt f s
  | .beagleScheduleTrace f => Sys2Proof.Machine.execBeagleScheduleTrace f s
  | .step f => Sys2Proof.Machine.execStep f s
  | .doorbell f val => Sys2Proof.Machine.execDoorbell f val s
  | .mbxWrite f off size val => Sys2Proof.Machine.execMbxWrite f off size val s
  | .registerWrite f off size val => Sys2Proof.Machine.execRegisterWrite f off size val s
  | .commandComplete f => Sys2Proof.Machine.execCommandComplete f s
  | .deferredCommandComplete f slot => Sys2Proof.Machine.execDeferredCommandComplete f slot s
  | .functionLevelReset f => Sys2Proof.Machine.execFunctionLevelReset f s
  | .perstAssert port contact => Sys2Proof.Machine.execPerstAssert port contact s
  | .vfEnableClear port => Sys2Proof.Machine.execVfEnableClear port s
  | .pcieConfigRequest port early vfs => Sys2Proof.Machine.execPcieConfigRequest port early vfs s
  | .getVersion f => Sys2Proof.Machine.execGetVersion f s
  | .getCapabilities f => Sys2Proof.Machine.execGetCapabilities f s
  | .negotiateAlgorithms f => Sys2Proof.Machine.execNegotiateAlgorithms f s
  | .getDigests f => Sys2Proof.Machine.execGetDigests f s
  | .getCertificate f slot => Sys2Proof.Machine.execGetCertificate f slot s
  | .challenge f slot => Sys2Proof.Machine.execChallenge f slot s
  | .getMeasurements f index => Sys2Proof.Machine.execGetMeasurements f index s
  | .keyExchange f => Sys2Proof.Machine.execKeyExchange f s
  | .finish f session => Sys2Proof.Machine.execFinish f session s
  | .heartbeat f session => Sys2Proof.Machine.execHeartbeat f session s
  | .keyUpdate f session => Sys2Proof.Machine.execKeyUpdate f session s
  | .endSession f session => Sys2Proof.Machine.execEndSession f session s
  | .mctpRequest ty sensor mv => Sys2Proof.Machine.execMctpRequest ty sensor mv s
  | .entropyWindow raw => Sys2Proof.Machine.execEntropyWindow raw s
  | .entropyRestartSettled raw => Sys2Proof.Machine.execEntropyRestartSettled raw s
  | .drbgReseed => Sys2Proof.Machine.execDrbgReseed s
  | .blockReceive p crc seq ack nak replay retrain time units => Sys2Proof.Machine.execBlockReceive p crc seq ack nak replay retrain time units s
  | .timeRetrainTimeout p => Sys2Proof.Machine.execTimeRetrainTimeout p s
  | .blockReplay p => Sys2Proof.Machine.execBlockReplay p s
  | .ackTimeout p => Sys2Proof.Machine.execAckTimeout p s
  | .retrainTimeout p => Sys2Proof.Machine.execRetrainTimeout p s
  | .lossOfSignal p => Sys2Proof.Machine.execLossOfSignal p s
  | .signalDetected p w => Sys2Proof.Machine.execSignalDetected p w s
  | .alignLock p => Sys2Proof.Machine.execAlignLock p s
  | .linkHello p => Sys2Proof.Machine.execLinkHello p s
  | .delayMeasured p f => Sys2Proof.Machine.execDelayMeasured p f s
  | .tablesCheck p peer => Sys2Proof.Machine.execTablesCheck p peer s
  | .trainingTimeout p => Sys2Proof.Machine.execTrainingTimeout p s
  | .unitSend p slot => Sys2Proof.Machine.execUnitSend p slot s
  | .credit p => Sys2Proof.Machine.execCredit p s
  | .data p => Sys2Proof.Machine.execData p s
  | .dataPoison p => Sys2Proof.Machine.execDataPoison p s
  | .sectend p => Sys2Proof.Machine.execSectend p s
  | .unknownUnit p => Sys2Proof.Machine.execUnknownUnit p s
  | .bmsg p => Sys2Proof.Machine.execBmsg p s
  | .brp p => Sys2Proof.Machine.execBrp p s
  | .brpPoison p => Sys2Proof.Machine.execBrpPoison p s
  | .form p => Sys2Proof.Machine.execForm p s
  | .formed p => Sys2Proof.Machine.execFormed p s
  | .formationTimeout c => Sys2Proof.Machine.execFormationTimeout c s
  | .digest p => Sys2Proof.Machine.execDigest p s
  | .memberLossDetect trunk relay => Sys2Proof.Machine.execMemberLossDetect trunk relay s
  | .memberLost p relay => Sys2Proof.Machine.execMemberLost p relay s
  | .replayHold p => Sys2Proof.Machine.execReplayHold p s
  | .replayMark p => Sys2Proof.Machine.execReplayMark p s
  | .portMove p => Sys2Proof.Machine.execPortMove p s
  | .cmReq l sid priv => Sys2Proof.Machine.execCmReq l sid priv s
  | .cmDreq l q => Sys2Proof.Machine.execCmDreq l q s
  | .qpTransportError l q => Sys2Proof.Machine.execQpTransportError l q s
  | .invalidRequest l q => Sys2Proof.Machine.execInvalidRequest l q s
  | .cnp l q => Sys2Proof.Machine.execCnp l q s
  | .recordFirstPacket l q icrc ecn len data => Sys2Proof.Machine.execRecordFirstPacket l q icrc ecn len data s
  | .recordLastPacket l q icrc ecn len data => Sys2Proof.Machine.execRecordLastPacket l q icrc ecn len data s
  | .descriptorWrite l q => Sys2Proof.Machine.execDescriptorWrite l q s
  | .replyFlit src ep => Sys2Proof.Machine.execReplyFlit src ep s
  | .replyAck l q => Sys2Proof.Machine.execReplyAck l q s
  | .laneFault p w => Sys2Proof.Machine.execLaneFault p w s
  | .linkFault t side lost => Sys2Proof.Machine.execLinkFault t side lost s
  | .detourSwitch path => Sys2Proof.Machine.execDetourSwitch path s
  | .replayRelease c => Sys2Proof.Machine.execReplayRelease c s
  | .stackFailure k => Sys2Proof.Machine.execStackFailure k s
  | .backgroundRebuildDone q => Sys2Proof.Machine.execBackgroundRebuildDone q s
  | .basinPortFail b => Sys2Proof.Machine.execBasinPortFail b s
  | .loopPortFail l => Sys2Proof.Machine.execLoopPortFail l s
  | .lockstepMismatch pair => Sys2Proof.Machine.execLockstepMismatch pair s
  | .firmwareWatchdog pair => Sys2Proof.Machine.execFirmwareWatchdog pair s
  | .warmRestartEnd pair => Sys2Proof.Machine.execWarmRestartEnd pair s
  | .pwrGoodRise profsel svc badCopies badAreas unusable sealBad cellMv slotId => Sys2Proof.Machine.execPwrGoodRise profsel svc badCopies badAreas unusable sealBad cellMv slotId s
  | .startReady => Sys2Proof.Machine.execStartReady s
  | .startWatchdog => Sys2Proof.Machine.execStartWatchdog s
  | .pwrGoodFall contacts service => Sys2Proof.Machine.execPwrGoodFall contacts service s
  | .mainOvercurrent => Sys2Proof.Machine.execMainOvercurrent s
  | .flowVerified inlet outlet flowA flowB drop => Sys2Proof.Machine.execFlowVerified inlet outlet flowA flowB drop s
  | .flowLost inlet outlet flowA flowB drop => Sys2Proof.Machine.execFlowLost inlet outlet flowA flowB drop s
  | .flowLostTimeout => Sys2Proof.Machine.execFlowLostTimeout s
  | .coolantDerate inlet outlet flowA flowB drop => Sys2Proof.Machine.execCoolantDerate inlet outlet flowA flowB drop s
  | .governorInterval draws total slack => Sys2Proof.Machine.execGovernorInterval draws total slack s
  | .computeGroupOffTimer g => Sys2Proof.Machine.execComputeGroupOffTimer g s
  | .thermalSample d readings => Sys2Proof.Machine.execThermalSample d readings s
  | .tripHoldEnd g => Sys2Proof.Machine.execTripHoldEnd g s
  | .stackHot k reading => Sys2Proof.Machine.execStackHot k reading s
  | .dieClockStop d => Sys2Proof.Machine.execDieClockStop d s
  | .wakeRequest d merged => Sys2Proof.Machine.execWakeRequest d merged s
  | .mgmtAccessWatchdog f again => Sys2Proof.Machine.execMgmtAccessWatchdog f again s
  | .rtcRangeEnd => Sys2Proof.Machine.execRtcRangeEnd s
  | .cellMeasure mv => Sys2Proof.Machine.execCellMeasure mv s
  | .timeBaseTick => Sys2Proof.Machine.execTimeBaseTick s
  | .engineClockGate t e => Sys2Proof.Machine.execEngineClockGate t e s
  | .telemetrySample groups inlet outlet flowA flowB drop => Sys2Proof.Machine.execTelemetrySample groups inlet outlet flowA flowB drop s
  | .coolantNotVerified => Sys2Proof.Machine.execCoolantNotVerified s
  | .sramCopyError => Sys2Proof.Machine.execSramCopyError s
  | .auxiliarySupply present vbat => Sys2Proof.Machine.execAuxiliarySupply present vbat s
  | .sendMiddle l q icrc ecn len data => Sys2Proof.Machine.execSendMiddle l q icrc ecn len data s
  | .rnrNak l q => Sys2Proof.Machine.execRnrNak l q s
  | .pfcPause l quanta => Sys2Proof.Machine.execPfcPause l quanta s
  | .loopLinkUp l => Sys2Proof.Machine.execLoopLinkUp l s

end Sys2Proof.Machine
end

