-- ==== Sys2Proof/WellFormed.lean ====
section
/-! DEFINITION. Which commands name units that the part has: a command that does not is answered with a fault. -/

namespace Sys2Proof

/-- A physical tile of the 128 × 72 grid (R5). -/
def okTile (t : Nat) : Bool := decide (t < 9216)
/-- A granule and its wharf (R5). -/
def okGranule (g : Nat) : Bool := decide (g < 576)
/-- A Hold stack, its controller and its update unit (R224). -/
def okStack (k : Nat) : Bool := decide (k < 32)
/-- A canal endpoint: 576 wharves, 32 Hold controllers, the I/O dies and the Lockkeeper (R207). -/
def okEndpoint (ep : Nat) : Bool := decide (ep < 627)
/-- The canal endpoint of an I/O die that carries Loop ports. -/
def okLoopEndpoint (ep : Nat) : Bool := ep == 614 || ep == 622
/-- A device context: four for each of the 256 tenants. -/
def okCtx (c : Nat) : Bool := decide (c < 1024)
/-- A Giore port (0 to 47) or a Basin port (48 to 55). -/
def okPort (p : Nat) : Bool := decide (p < 56)
/-- A Loop port. -/
def okLoop (l : Nat) : Bool := decide (l < 8)
/-- A PCIe function: the PF or one of 256 VFs of either host port. -/
def okFn (f : Nat) : Bool := decide (f < 514)

/-- Every operand of the command names a unit of the part. -/
def Instr.wf : Instr → Bool
  | .nop t => okTile t
  | .illegalInstruction t => okTile t
  | .alu t => okTile t
  | .addi t => okTile t
  | .andi t => okTile t
  | .ori t => okTile t
  | .xori t => okTile t
  | .slti t => okTile t
  | .sltiu t => okTile t
  | .shi t => okTile t
  | .lui t => okTile t
  | .lb t _ => okTile t
  | .lbu t _ => okTile t
  | .lh t _ => okTile t
  | .lhu t _ => okTile t
  | .lw t _ => okTile t
  | .flw t _ => okTile t
  | .fld t _ => okTile t
  | .sb t _ => okTile t
  | .sh t _ => okTile t
  | .sw t _ => okTile t
  | .fsw t _ => okTile t
  | .fsd t => okTile t
  | .beq t => okTile t
  | .bne t => okTile t
  | .blt t => okTile t
  | .bge t => okTile t
  | .bltu t => okTile t
  | .bgeu t => okTile t
  | .jal t => okTile t
  | .jalr t => okTile t
  | .fadd t => okTile t
  | .fsub t => okTile t
  | .fmul t => okTile t
  | .ffma t => okTile t
  | .ffnma t => okTile t
  | .fdiv t => okTile t
  | .fsqrt t => okTile t
  | .fmin t => okTile t
  | .fmax t => okTile t
  | .fcvt t => okTile t
  | .fcmp t => okTile t
  | .fcvti t => okTile t
  | .fcvtf t => okTile t
  | .fmvgf t => okTile t
  | .fmvfg t => okTile t
  | .iss t _ => okTile t
  | .orderEnqueue t _ => okTile t
  | .swait t => okTile t
  | .swaitSatisfied t => okTile t
  | .ssig t => okTile t
  | .stry t => okTile t
  | .await t => okTile t
  | .awaitSatisfied t => okTile t
  | .atest t => okTile t
  | .ifill t _ => okTile t
  | .lock t => okTile t
  | .brk t => okTile t
  | .crrl t => okTile t
  | .crrh t => okTile t
  | .crwl t => okTile t
  | .crwh t => okTile t
  | .fcrr t => okTile t
  | .fcrw t => okTile t
  | .srr t => okTile t
  | .srw t => okTile t
  | .breakpointStop t => okTile t
  | .orderLeavesHead t e => okTile t && decide (e < 3)
  | .orderBegin t e _ => okTile t && decide (e < 3)
  | .orderSignal t e => okTile t && decide (e < 3)
  | .mxeNop t => okTile t
  | .mxeLdtd t _ => okTile t
  | .ldb t _ => okTile t
  | .mma t _ => okTile t
  | .drain t => okTile t
  | .ldacc t _ => okTile t
  | .mxeStat t => okTile t
  | .vxeNop t => okTile t
  | .vxeLdtd t _ => okTile t
  | .ldk t _ => okTile t
  | .vxeStat t => okTile t
  | .vew t _ => okTile t
  | .vtr t _ => okTile t
  | .vred t _ => okTile t
  | .vsample t _ => okTile t
  | .vrand t _ => okTile t
  | .xeNop t => okTile t
  | .send t => okTile t
  | .msend t => okTile t
  | .comb t => okTile t
  | .recv t => okTile t
  | .recvComplete t => okTile t
  | .pull t => okTile t
  | .flitInject t _ => okTile t
  | .routerForward t o _ _ => okTile t && decide (o < 5)
  | .creditReturn t o lane => okTile t && decide (o < 5) && decide (lane < 8)
  | .combine t _ _ => okTile t
  | .flitCommit t _ => okTile t
  | .wharfTakeFlit g => okGranule g
  | .streamRead g => okGranule g
  | .streamFence g => okGranule g
  | .fenceComplete g => okGranule g
  | .holdWriteFlit g => okGranule g
  | .portOutFlit g => okGranule g
  | .bargeSend ep dst _ _ => okEndpoint ep && okEndpoint dst
  | .rdReq _ k => okStack k
  | .mergeWindowEnd k => okStack k
  | .wr _ k => okStack k
  | .accWr _ k => okStack k
  | .holdAccessSlot k _ _ => okStack k
  | .patrolScrub line _ => decide (line < 28 * 2 ^ 30)
  | .rdRpl _ g => okGranule g
  | .wrAck _ g => okGranule g || okLoopEndpoint g
  | .portIn _ g => okGranule g
  | .pullGrant g => okGranule g
  | .huuArrival c h _ => okCtx c && okStack h
  | .factorPass n _ _ => decide (n < 16384)
  | .updateBlock n _ _ => decide (n < 16384)
  | .lockkeeperArrival c => okCtx c
  | .delayedScaleWrite c _ => okCtx c
  | .lockFire c => okCtx c
  | .lockRelease c m => okCtx c && decide (m ≤ 9216)
  | .lockOverdue c => okCtx c
  | .gatherMarker p => okPort p
  | .releaseMarker p => okPort p
  | .hello f => okFn f
  | .goodbye f => okFn f
  | .eqConfig f => okFn f
  | .readResult f => okFn f
  | .getRandom f => okFn f
  | .tenantSetup f => okFn f
  | .tenantReset f => okFn f
  | .tenantResetComplete n _ => decide (n < 256)
  | .tenantRelease f _ => okFn f
  | .releaseBasinTimeout n _ => decide (n < 256)
  | .tenantQuery f => okFn f
  | .tenantPolicy f => okFn f
  | .load f _ _ _ _ => okFn f
  | .seedSet f => okFn f
  | .seedDraw f => okFn f
  | .updRead f => okFn f
  | .exportShards f _ => okFn f
  | .importShards f _ => okFn f
  | .permute f _ _ _ _ => okFn f
  | .domainRead f => okFn f
  | .domainWrite f => okFn f
  | .domainStart f => okFn f
  | .domainForm f => okFn f
  | .domainStage f _ => okFn f
  | .domainWithdraw f => okFn f
  | .domainResume f => okFn f
  | .domainAbort f => okFn f
  | .domainGrant f => okFn f
  | .fabricConfig f => okFn f
  | .setProfile f => okFn f
  | .powerCap f => okFn f
  | .slotRepack f => okFn f
  | .entropyReset f => okFn f
  | .regRead f => okFn f
  | .regWrite f => okFn f
  | .setDevPolicy f => okFn f
  | .telemetryComputeGroup f => okFn f
  | .telemetryCoolant f => okFn f
  | .telemetryMonitor f => okFn f
  | .telemetryIdleTotals f => okFn f
  | .telemetryStream f => okFn f
  | .telemetryExpansion f => okFn f
  | .fwBegin f => okFn f
  | .fwBlock f _ => okFn f
  | .fwCommit f _ => okFn f
  | .fwStatus f => okFn f
  | .fwUpdateIdleTimeout => true
  | .timeSet f => okFn f
  | .timeGet f => okFn f
  | .calRead f => okFn f
  | .calWrite f => okFn f
  | .calRestoreFactory f => okFn f
  | .calApply => true
  | .entropySample f _ _ => okFn f
  | .tileRead f _ _ => okFn f
  | .tileWrite f _ => okFn f
  | .syncSet f => okFn f
  | .beagleSetBreakpoint f => okFn f
  | .beagleClearBreakpoint f => okFn f
  | .beagleStop f => okFn f
  | .beagleResume f => okFn f
  | .beagleQuery f => okFn f
  | .beagleScheduleHalt f => okFn f
  | .beagleScheduleTrace f => okFn f
  | .step f => okFn f
  | .doorbell f _ => okFn f
  | .mbxWrite f _ _ _ => okFn f
  | .registerWrite f _ _ _ => okFn f
  | .commandComplete f => okFn f
  | .deferredCommandComplete f slot => okFn f && decide (slot < 16)
  | .functionLevelReset f => okFn f
  | .perstAssert port _ => decide (port < 2)
  | .vfEnableClear port => decide (port < 2)
  | .pcieConfigRequest port _ _ => decide (port < 2)
  | .getVersion f => okFn f
  | .getCapabilities f => okFn f
  | .negotiateAlgorithms f => okFn f
  | .getDigests f => okFn f
  | .getCertificate f _ => okFn f
  | .challenge f _ => okFn f
  | .getMeasurements f _ => okFn f
  | .keyExchange f => okFn f
  | .finish f _ => okFn f
  | .heartbeat f _ => okFn f
  | .keyUpdate f _ => okFn f
  | .endSession f _ => okFn f
  | .mctpRequest _ _ _ => true
  | .entropyWindow _ => true
  | .entropyRestartSettled _ => true
  | .drbgReseed => true
  | .blockReceive p _ _ _ _ _ _ _ _ => okPort p
  | .timeRetrainTimeout p => okPort p
  | .blockReplay p => okPort p
  | .ackTimeout p => okPort p
  | .retrainTimeout p => okPort p
  | .lossOfSignal p => okPort p
  | .signalDetected p _ => okPort p
  | .alignLock p => okPort p
  | .linkHello p => okPort p
  | .delayMeasured p _ => okPort p
  | .tablesCheck p _ => okPort p
  | .trainingTimeout p => okPort p
  | .unitSend p slot => okPort p && decide (slot < 512)
  | .credit p => okPort p
  | .data p => okPort p
  | .dataPoison p => okPort p
  | .sectend p => okPort p
  | .unknownUnit p => okPort p
  | .bmsg p => okPort p && decide (48 ≤ p)
  | .brp p => okPort p && decide (48 ≤ p)
  | .brpPoison p => okPort p && decide (48 ≤ p)
  | .form p => okPort p
  | .formed p => okPort p
  | .formationTimeout c => okCtx c
  | .digest p => okPort p
  | .memberLossDetect trunk _ => decide (trunk < 6)
  | .memberLost p _ => okPort p
  | .replayHold p => okPort p
  | .replayMark p => okPort p
  | .portMove p => okPort p
  | .cmReq l _ _ => okLoop l
  | .cmDreq l _ => okLoop l
  | .qpTransportError l _ => okLoop l
  | .invalidRequest l _ => okLoop l
  | .cnp l _ => okLoop l
  | .recordFirstPacket l _ _ _ _ _ => okLoop l
  | .recordLastPacket l _ _ _ _ _ => okLoop l
  | .descriptorWrite l _ => okLoop l
  | .replyFlit _ ep => okLoopEndpoint ep
  | .replyAck l _ => okLoop l
  | .laneFault p _ => okPort p
  | .linkFault t side _ => okTile t && decide (side < 9)
  | .detourSwitch path => decide (path < 32)
  | .replayRelease c => okCtx c
  | .stackFailure k => okStack k
  | .backgroundRebuildDone q => decide (q < 4)
  | .basinPortFail b => decide (b < 8)
  | .loopPortFail l => okLoop l
  | .lockstepMismatch pair => decide (pair < 2)
  | .firmwareWatchdog pair => decide (pair < 2)
  | .warmRestartEnd pair => decide (pair < 2)
  | .pwrGoodRise _ _ _ _ _ _ _ _ => true
  | .startReady => true
  | .startWatchdog => true
  | .pwrGoodFall _ _ => true
  | .mainOvercurrent => true
  | .flowVerified _ _ _ _ _ => true
  | .flowLost _ _ _ _ _ => true
  | .flowLostTimeout => true
  | .coolantDerate _ _ _ _ _ => true
  | .governorInterval _ _ _ => true
  | .computeGroupOffTimer g => decide (g < 12)
  | .thermalSample d readings => decide (d < 48) && readings.length == 12
  | .tripHoldEnd g => decide (g < 12)
  | .stackHot k _ => okStack k
  | .dieClockStop d => decide (d < 48)
  | .wakeRequest d _ => decide (d < 48)
  | .mgmtAccessWatchdog f _ => okFn f
  | .rtcRangeEnd => true
  | .cellMeasure _ => true
  | .timeBaseTick => true
  | .engineClockGate t e => okTile t && decide (e < 4)
  | .telemetrySample groups _ _ _ _ _ => groups.length == 12
  | .coolantNotVerified => true
  | .sramCopyError => true
  | .auxiliarySupply _ _ => true
  | .sendMiddle l _ _ _ _ _ => okLoop l
  | .rnrNak l _ => okLoop l
  | .pfcPause l _ => okLoop l
  | .loopLinkUp l => okLoop l

end Sys2Proof
end

