-- ==== Sys2Proof/Safety.lean ====
section
/-! DEFINITION. The terms in which claims speak of the block: when a scalar core, an engine or a mailbox is ready for a
command, and what a completed one leaves. -/

namespace Sys2Proof.Machine

/-- What a next state satisfies: the command is answered by a next state `t` with `P t`. -/
def Answers (o : Out) (P : State → Prop) : Prop := ∃ t, o = .next t ∧ P t

/-! ### Scalar cores -/

/-- The core of tile `t` begins its next instruction, a word of opcode `op` that it executes (R161, R163, R180). -/
def Ready (s : State) (t op : Nat) : Bool :=
  decide (t < numTiles) && s.coreReady t && iOp (s.tile t).instr == op && legal (s.tile t).instr

/-- The state after an instruction of tile `t` that leaves the tile as `tl`, goes on at index `next` and took `cost` cycles. -/
def ScalarNext (s : State) (t : Nat) (tl : Tile) (next cost : Nat) : State :=
  (s.setTile t (tl.completes (s.tile t).gen next cost)).stopEvent t

/-! ### Memories -/

/-- Every memory that the block holds is in canonical form. -/
def State.memoriesWf (s : State) : Bool :=
  Memory.wf s.hold && Memory.wf s.hostMem && s.tiles.all (fun p => Memory.wf p.2.mem) && Memory.wf s.nv.bankA.image &&
  Memory.wf s.nv.bankB.image && (s.boot.update.map (fun u => Memory.wf u.data)).getD true

/-! ### Ports -/

/-- Nothing but port `p` differs. -/
def PortOnly (s u : State) (p : Nat) : Prop := u = s.setPort p (u.port p)

/-- The units that a port has sent and the partner has not acknowledged, each with its position in its block (R320). -/
def GPort.carried (q : GPort) : List (Nat × LinkUnit) := q.replay.flatMap Block.units ++ q.filling

/-- The flag of GPORT_STATUS is set. -/
def GPort.shows (q : GPort) (i : Nat) : Prop := q.status.getLsbD i = true

/-- Nothing but Loop port `l` differs. -/
def LoopOnly (s u : State) (l : Nat) : Prop := u = s.setLoop l (u.loop l)

/-! ### Mailbox commands -/

/-- The command `c` of function `f` is under way, its code is `code`, and it passes the checks that every command meets (R387,
R390, R395, R396, R403). -/
def Passes (s : State) (f code c : Nat) : Prop := f < 514 ∧ s.underWay f = some c ∧ fieldLE c 0 2 = code ∧ s.refusal f c = none

/-- The outcome of the command under way of `f` is `r`. -/
def Says (u : State) (f : Nat) (r : Resp) : Prop := (u.fn f).resp = some r

/-- Slot `k` of a function. -/
def slotAt (s : State) (f k : Nat) : Slot := Tbl.get {} (s.fn f).slots k

/-- No generation of the slot that command `c` names is running. -/
def SlotFree (s : State) (f c : Nat) : Prop := (slotAt s f (fieldLE c 3 1)).running = false

/-- The deferred command `c` has begun the next generation of its slot, and the response names both (R391). -/
def Begins (s u : State) (f c : Nat) : Prop :=
  Says u f { Resp.done with rflags := 4, slot := fieldLE c 3 1, gen := (slotAt s f (fieldLE c 3 1)).gen + 1 } ∧
  (slotAt u f (fieldLE c 3 1)).running = true ∧ (slotAt u f (fieldLE c 3 1)).gen = (slotAt s f (fieldLE c 3 1)).gen + 1 ∧
  (slotAt u f (fieldLE c 3 1)).code = fieldLE c 0 2

/-- The generation that command `c` began has an outcome of this status, not yet published. -/
def Settled (u : State) (f c status : Nat) : Prop := ∃ r, (slotAt u f (fieldLE c 3 1)).ready = some r ∧ r.status = status

/-- The generation that command `c` began has no outcome yet. -/
def Waits (u : State) (f c : Nat) : Prop := (slotAt u f (fieldLE c 3 1)).ready = none

end Sys2Proof.Machine
end

