-- ==== Sys2Proof/Certificates/Slice0/Obligations.lean ====
section
/-! DEFINITION. The statements about the block that the provers are asked to prove or refute. -/

open Sys2Proof Sys2Proof.Machine

/-- Clauses of R161, R162: what NOP, the ALU functions and the immediate forms write to g[RD], with their cycles. -/
def Obligations.ScalarIntegerResults : Prop :=
  ∀ (s : State) (t : Nat),
    let tl := s.tile t
    let w := tl.instr
    let a := tl.gr (iRA w)
    let b := tl.gr (iRB w)
    let im : Word := BitVec.ofInt 32 (sext (iIMM w) 15)
    let z : Word := BitVec.ofNat 32 (iIMM w)
    let sh := bits w.toNat 0 5
    let writes (v : Word) (cost : Nat) : Out := .next (ScalarNext s t (tl.setG (iRD w) v) (tl.core.pc.toNat + 1) cost)
    (Ready s t 0x01 → exec (.nop t) s = .next (ScalarNext s t tl (tl.core.pc.toNat + 1) 1)) ∧
    (Ready s t 0x02 → ∀ p ∈ [(0x000, a + b, 1), (0x001, a - b, 1), (0x002, a &&& b, 1), (0x003, a ||| b, 1), (0x004, a ^^^ b, 1),
        (0x005, a <<< (b.toNat % 32), 1), (0x006, a >>> (b.toNat % 32), 1), (0x007, a.sshiftRight (b.toNat % 32), 1),
        (0x008, if a.toInt < b.toInt then 1#32 else 0#32, 1), (0x009, if a.toNat < b.toNat then 1#32 else 0#32, 1),
        (0x00A, if a.toInt < b.toInt then a else b, 1), (0x00B, if a.toInt < b.toInt then b else a, 1),
        (0x00C, if a.toNat < b.toNat then a else b, 1), (0x00D, if a.toNat < b.toNat then b else a, 1),
        (0x010, BitVec.ofNat 32 (a.toNat * b.toNat), 3), (0x011, BitVec.ofInt 32 (a.toInt * b.toInt / 2 ^ 32), 3),
        (0x012, BitVec.ofNat 32 (a.toNat * b.toNat / 2 ^ 32), 3)],
      iFN w = p.1 → exec (.alu t) s = writes p.2.1 p.2.2) ∧
    (Ready s t 0x03 → exec (.addi t) s = writes (a + im) 1) ∧
    (Ready s t 0x04 → exec (.andi t) s = writes (a &&& z) 1) ∧
    (Ready s t 0x05 → exec (.ori t) s = writes (a ||| z) 1) ∧
    (Ready s t 0x06 → exec (.xori t) s = writes (a ^^^ z) 1) ∧
    (Ready s t 0x07 → exec (.slti t) s = writes (if a.toInt < im.toInt then 1 else 0) 1) ∧
    (Ready s t 0x08 → exec (.sltiu t) s = writes (if a.toNat < im.toNat then 1 else 0) 1) ∧
    (Ready s t 0x09 →
      (bits w.toNat 13 2 = 0 → exec (.shi t) s = writes (a <<< sh) 1) ∧
      (bits w.toNat 13 2 = 1 → exec (.shi t) s = writes (a >>> sh) 1) ∧
      (bits w.toNat 13 2 = 2 → exec (.shi t) s = writes (a.sshiftRight sh) 1)) ∧
    (Ready s t 0x0A → exec (.lui t) s = writes (BitVec.ofNat 32 (bits w.toNat 0 20 * 2 ^ 12)) 1)

/-- Clauses of R160, R161: the branches compare g[RA] (bits 24:20) with g[RB] (bits 19:15), and JAL and JALR link and jump. -/
def Obligations.ScalarControlFlow : Prop :=
  ∀ (s : State) (t : Nat),
    let tl := s.tile t
    let w := tl.instr
    let pc := tl.core.pc.toNat
    let a := tl.gr (iRD w)
    let b := tl.gr (iRA w)
    let goes (taken : Bool) : Out :=
      .next (if taken then ScalarNext s t tl ((pc + sext (iIMM w) 15) % 4096).toNat 2 else ScalarNext s t tl (pc + 1) 1)
    let jumps (target : Nat) : Out := .next (ScalarNext s t (tl.setG (iRD w) (BitVec.ofNat 32 ((pc + 1) % 4096))) target 2)
    (Ready s t 0x20 → exec (.beq t) s = goes (decide (a = b))) ∧
    (Ready s t 0x21 → exec (.bne t) s = goes (decide (a ≠ b))) ∧
    (Ready s t 0x22 → exec (.blt t) s = goes (decide (a.toInt < b.toInt))) ∧
    (Ready s t 0x23 → exec (.bge t) s = goes (decide (b.toInt ≤ a.toInt))) ∧
    (Ready s t 0x24 → exec (.bltu t) s = goes (decide (a.toNat < b.toNat))) ∧
    (Ready s t 0x25 → exec (.bgeu t) s = goes (decide (b.toNat ≤ a.toNat))) ∧
    (Ready s t 0x26 → exec (.jal t) s = jumps (bits w.toNat 0 12)) ∧
    (Ready s t 0x27 → exec (.jalr t) s = jumps ((b + BitVec.ofInt 32 (sext (iIMM w) 15)).toNat % 4096))

/-- Clauses of R164: a load of an aligned address inside tile memory whose words are good after the moment's upsets writes the
little-endian value, extended as its mnemonic says; a corrected word counts (R90) as `checkWord` gives it.
The conventions of log entry 156 are the model's, not the spec's. -/
def Obligations.ScalarLoadResults : Prop :=
  ∀ (s : State) (t : Nat) (ups : List (Nat × Bool)),
    let tl := (s.tile t).upsets ups
    let w := (s.tile t).instr
    let ea := ((s.tile t).gr (iRA w) + BitVec.ofInt 32 (sext (iIMM w) 15)).toNat
    let c := tl.checkWord (ea / 8)
    let v (n : Nat) : Nat := tl.mem.readLE ea n
    let fits (n : Nat) : Prop := ea < 2 ^ 22 ∧ ea % n = 0 ∧ c.2 = .good
    let done (x : Tile) : Out := .next (ScalarNext s t x ((s.tile t).core.pc.toNat + 1) 2)
    (Ready s t 0x10 → fits 1 → exec (.lb t ups) s = done (c.1.setG (iRD w) (BitVec.ofInt 32 (sext (v 1) 8)))) ∧
    (Ready s t 0x11 → fits 1 → exec (.lbu t ups) s = done (c.1.setG (iRD w) (BitVec.ofNat 32 (v 1)))) ∧
    (Ready s t 0x12 → fits 2 → exec (.lh t ups) s = done (c.1.setG (iRD w) (BitVec.ofInt 32 (sext (v 2) 16)))) ∧
    (Ready s t 0x13 → fits 2 → exec (.lhu t ups) s = done (c.1.setG (iRD w) (BitVec.ofNat 32 (v 2)))) ∧
    (Ready s t 0x14 → fits 4 → exec (.lw t ups) s = done (c.1.setG (iRD w) (BitVec.ofNat 32 (v 4)))) ∧
    (Ready s t 0x15 → fits 4 → exec (.flw t ups) s = done (c.1.setF (iRD w) (BitVec.ofNat 64 (v 4)))) ∧
    (Ready s t 0x16 → fits 8 → exec (.fld t ups) s = done (c.1.setF (iRD w) (BitVec.ofNat 64 (v 8))))

/-- Clauses of R92, R93, R164: an accepted store writes its bytes at the effective address and no other byte of tile memory, and gives
its 8-byte word new check bits; FSD needs no good word.
The conventions of log entry 156 are the model's, not the spec's. -/
def Obligations.ScalarStoreResults : Prop :=
  ∀ (s : State) (t : Nat) (ups : List (Nat × Bool)),
    let tl := (s.tile t).upsets ups
    let w := (s.tile t).instr
    let ea := ((s.tile t).gr (iRA w) + BitVec.ofInt 32 (sext (iIMM w) 15)).toNat
    let g := ((s.tile t).gr (iRD w)).toNat
    let f := ((s.tile t).fr (iRD w)).toNat
    let fits (n : Nat) : Prop := ea < 2 ^ 22 ∧ ea % n = 0 ∧ (tl.checkWord (ea / 8)).2 = .good
    let stores (o : Out) (n x : Nat) : Prop := Answers o (fun u =>
      (∀ a, (u.tile t).mem.read a = if ea ≤ a ∧ a < ea + n then BitVec.ofNat 8 (x / 256 ^ (a - ea)) else tl.mem.read a) ∧
      (u.tile t).chk.find (ea / 8) = none ∧ (u.tile t).core.pc = (s.tile t).core.pc + 1 ∧
      (∀ i, (u.tile t).gr i = (s.tile t).gr i ∧ (u.tile t).fr i = (s.tile t).fr i) ∧ (∀ k, k ≠ t → u.tile k = s.tile k))
    Memory.wf tl.mem →
    (Ready s t 0x18 → fits 1 → stores (exec (.sb t ups) s) 1 g) ∧
    (Ready s t 0x19 → fits 2 → stores (exec (.sh t ups) s) 2 g) ∧
    (Ready s t 0x1A → fits 4 → stores (exec (.sw t ups) s) 4 g) ∧
    (Ready s t 0x1B → fits 4 → stores (exec (.fsw t ups) s) 4 f) ∧
    (Ready s t 0x1C → ups = [] → ea < 2 ^ 22 → ea % 8 = 0 → stores (exec (.fsd t) s) 8 f)

/-- Clauses of R95, R97, R164: an address outside tile memory takes ADDRESS_RANGE, a misaligned one MISALIGNED and a word that fails its check
INTEGRITY_FAILED, each precise with the address in FAULT_ADDR; and what a precise fault of a tile that has not stopped records.
The conventions of log entry 156 are the model's, not the spec's. -/
def Obligations.ScalarMemoryFaults : Prop :=
  (
  ∀ (s : State) (t n op : Nat) (i : Instr) (ups : List (Nat × Bool)),
      (i, op, n) ∈ [(.lb t ups, 0x10, 1), (.lbu t ups, 0x11, 1), (.lh t ups, 0x12, 2), (.lhu t ups, 0x13, 2), (.lw t ups, 0x14, 4),
        (.flw t ups, 0x15, 4), (.fld t ups, 0x16, 8), (.sb t ups, 0x18, 1), (.sh t ups, 0x19, 2), (.sw t ups, 0x1A, 4),
        (.fsw t ups, 0x1B, 4)] →
      Ready s t op →
      let tl := (s.tile t).upsets ups
      let w := (s.tile t).instr
      let ea := ((s.tile t).gr (iRA w) + BitVec.ofInt 32 (sext (iIMM w) 15)).toNat
      let faults (x : Tile) (cause : Nat) (hw : Bool) : Prop :=
        exec i s = .next ((s.setTile t x).tileFault t cause 0 0 (s.tile t).core.pc.toNat ea hw)
      (2 ^ 22 ≤ ea → faults tl 3 false) ∧
      (ea < 2 ^ 22 → ea % n ≠ 0 → faults tl 2 false) ∧
      (∀ fresh, ea < 2 ^ 22 → ea % n = 0 → (tl.checkWord (ea / 8)).2 = .failed fresh → faults (tl.checkWord (ea / 8)).1 4 fresh)) ∧
  (
  ∀ (s : State) (t cause source detail index addr : Nat),
      (s.tile t).faulted = false →
      let u := s.tileFault t cause source detail index addr false
      (u.tile t).faulted = true ∧
      (u.tile t).tileFault = faultWord cause source (decide (source = 0)) detail index ∧
      (u.tile t).faultAddr = BitVec.ofNat 64 (addr % 2 ^ 32) ∧
      (u.tile t).mxe.exec = none ∧ (u.tile t).vxe.exec = none ∧ (u.tile t).xe.exec = none ∧
      (u.tile t).mxe.owed = [] ∧ (u.tile t).vxe.owed = [] ∧ (u.tile t).xe.owed = [] ∧
      (u.tile t).core = (s.tile t).core ∧ (u.tile t).mem = (s.tile t).mem ∧ (u.tile t).sync = (s.tile t).sync ∧
      (∀ k, k ≠ t → u.tile k = s.tile k))

/-- Clauses of R165, R160: each floating instruction writes its rounded result to f[D] (a comparison or a conversion to an integer to
g[D]) and ORs its flags into FSTAT.
The conventions of log entry 17 are the model's, not the spec's. -/
def Obligations.ScalarFloatingResults : Prop :=
  ∀ (s : State) (t : Nat),
    let tl := s.tile t
    let w := tl.instr
    let pc := tl.core.pc.toNat
    let fmt := fpFmt (iP w)
    let a := tl.fval (iP w) (iRA w)
    let b := tl.fval (iP w) (iRB w)
    let c := tl.fval (iP w) (iC w)
    let rm := iRM w
    let ga := tl.gr (iRA w)
    let fa := (tl.fr (iRA w)).toNat
    let fd := (tl.fr (iRD w)).toNat
    let toF (r : Nat × Nat) (cost : Nat) : Out :=
      .next (ScalarNext s t ((tl.setF (iRD w) (BitVec.ofNat 64 r.1)).orFlags r.2) (pc + 1) cost)
    let rounded (r : Fv × Nat) (cost : Nat) : Out := toF (finish fmt rm false r) cost
    let toG (r : Word × Nat) (cost : Nat) : Out := .next (ScalarNext s t ((tl.setG (iRD w) r.1).orFlags r.2) (pc + 1) cost)
    (Ready s t 0x30 → exec (.fadd t) s = rounded (fvAdd rm a b) 4) ∧
    (Ready s t 0x31 → exec (.fsub t) s = rounded (fvAdd rm a b.negate) 4) ∧
    (Ready s t 0x32 → exec (.fmul t) s = rounded (fvMul a b) 4) ∧
    (Ready s t 0x33 → exec (.ffma t) s = rounded (fvFma rm a b c) 4) ∧
    (Ready s t 0x34 → exec (.ffnma t) s = rounded (fvFma rm a.negate b c) 4) ∧
    (Ready s t 0x35 → exec (.fdiv t) s = rounded (fvDiv a b) (if iP w then 24 else 12)) ∧
    (Ready s t 0x36 → exec (.fsqrt t) s = rounded (fvSqrt a) (if iP w then 24 else 12)) ∧
    (Ready s t 0x37 → exec (.fmin t) s = rounded (fvMinMax false a b) 4) ∧
    (Ready s t 0x38 → exec (.fmax t) s = rounded (fvMinMax true a b) 4) ∧
    (Ready s t 0x39 → exec (.fcvt t) s = toF (convert fmt rm false 0 (tl.fval (!iP w) (iRA w))) 2) ∧
    (Ready s t 0x3A → exec (.fcmp t) s = toG ((if (fvCmp (iC w) a b).1 then 1 else 0), (fvCmp (iC w) a b).2) 2) ∧
    (Ready s t 0x3B → exec (.fcvti t) s =
      toG (let r := if iX w then toIntRange 0 (2 ^ 32 - 1) rm 0 a else toIntRange (-2 ^ 31) (2 ^ 31 - 1) rm 0 a
           (BitVec.ofInt 32 r.1, r.2)) 2) ∧
    (Ready s t 0x3C → exec (.fcvtf t) s =
      toF (let i : Int := if iX w then (ga.toNat : Int) else ga.toInt
           roundTo fmt rm false 0 (decide (i < 0)) i.natAbs 0) 2) ∧
    (Ready s t 0x3D → exec (.fmvgf t) s =
      toF ((if iX w then fd % 2 ^ 32 + ga.toNat * 2 ^ 32 else fd / 2 ^ 32 * 2 ^ 32 + ga.toNat), 0) 1) ∧
    (Ready s t 0x3E → exec (.fmvfg t) s = toG (BitVec.ofNat 32 (if iX w then fa / 2 ^ 32 else fa), 0) 1)

/-- Clauses of R172, R173: the control-register instructions check their offset, and then read or write the register there; SRR and SRW
reach FSTAT, CYCLE_LO and CYCLE_HI. -/
def Obligations.ScalarRegisterAccess : Prop :=
  ∀ (s : State) (t : Nat),
    let tl := s.tile t
    let w := tl.instr
    let o := (tl.gr (iRA w) + BitVec.ofInt 32 (sext (iIMM w) 15)).toNat
    let r := crRead tl (s.member t) o
    let g := (tl.gr (iRD w)).toNat
    let f := (tl.fr (iRD w)).toNat
    let done (x : Tile) : Out := .next (ScalarNext s t x (tl.core.pc.toNat + 1) 1)
    (o < 0x4000 → o % 8 = 0 →
      (Ready s t 0x50 → exec (.crrl t) s = done (tl.setG (iRD w) (BitVec.ofNat 32 r))) ∧
      (Ready s t 0x51 → exec (.crrh t) s = done (tl.setG (iRD w) (BitVec.ofNat 32 (r / 2 ^ 32)))) ∧
      (Ready s t 0x52 → exec (.crwl t) s = done (crWrite tl o (2 ^ 32 - 1) g)) ∧
      (Ready s t 0x53 → exec (.crwh t) s = done (crWrite tl o (2 ^ 64 - 2 ^ 32) (g * 2 ^ 32))) ∧
      (Ready s t 0x54 → exec (.fcrr t) s = done (tl.setF (iRD w) (BitVec.ofNat 64 r))) ∧
      (Ready s t 0x55 → exec (.fcrw t) s = done (crWrite tl o (2 ^ 64 - 1) f))) ∧
    (∀ i op, (i, op) ∈ [(.crrl t, 0x50), (.crrh t, 0x51), (.crwl t, 0x52), (.crwh t, 0x53), (.fcrr t, 0x54), (.fcrw t, 0x55)] →
      Ready s t op →
      (0x4000 ≤ o → exec i s = .next ((s.setTile t tl).tileFault t 3 0 0 tl.core.pc.toNat o false)) ∧
      (o < 0x4000 → o % 8 ≠ 0 → exec i s = .next ((s.setTile t tl).tileFault t 2 0 0 tl.core.pc.toNat o false))) ∧
    (Ready s t 0x56 →
      (iIMM w = 0 → exec (.srr t) s = done (tl.setG (iRD w) (tl.core.fstat.setWidth 32))) ∧
      (iIMM w = 1 → exec (.srr t) s = done ({ tl with core := { tl.core with cycleHi := (tl.core.cycle >>> 32).setWidth 32 } }.setG
        (iRD w) (tl.core.cycle.setWidth 32))) ∧
      (iIMM w = 2 → exec (.srr t) s = done (tl.setG (iRD w) tl.core.cycleHi)) ∧
      (2 < iIMM w → exec (.srr t) s = done (tl.setG (iRD w) 0))) ∧
    (Ready s t 0x57 →
      (iIMM w = 0 → exec (.srw t) s =
        done { tl with core := { tl.core with fstat := tl.core.fstat &&& ~~~((tl.gr (iRD w)).setWidth 5) } }) ∧
      (iIMM w ≠ 0 → exec (.srw t) s = done tl))

/-- Clauses of R167, R168: waits and signals. A satisfied SWAIT takes its amount, an unsatisfied one stalls the core; SSIG adds; STRY tests
once; AWAIT and ATEST compare modulo 2^32. A stalled wait completes in its own event.
Clauses of R73, R161, R166, R169, R170, R180: ISS enters its order or stalls on a full queue, ORDER_ENQUEUE ends the stall, IFILL copies
whole blocks into the instruction buffer, LOCK arrives at the lock, BRK and a breakpoint stop the core, and a word that is no
instruction faults.
The conventions of log entries 18, 19 and 20 are the model's, not the spec's. -/
def Obligations.ScalarSyncAndControl : Prop :=
  (
  ∀ (s : State) (t : Nat),
      let tl := s.tile t
      let w := tl.instr
      let pc := tl.core.pc.toNat
      let h := iH w
      let n := iN w
      let reached (cnt : Nat) (target : Word) : Bool := decide (0 ≤ (Tbl.get 0#32 tl.acnt cnt - target).toInt)
      let g := tl.gr (iRA w)
      let done (x : Tile) (cost : Nat) : Out := .next (ScalarNext s t x (pc + 1) cost)
      let stalls (a : Activity) : Out := .next (s.setTile t { tl with core := { tl.core with act := a } })
      ((tl.sync.find h).isSome →
        (Ready s t 0x41 → exec (.swait t) s = if n ≤ tl.avail 3 h then done (tl.syncTake h n) 1 else stalls (.swait h n)) ∧
        (Ready s t 0x42 → exec (.ssig t) s = done (tl.syncSignal h n) 1) ∧
        (Ready s t 0x43 → exec (.stry t) s =
          if n ≤ tl.avail 3 h then done ((tl.syncTake h n).setG (iRD w) 1) 1 else done (tl.setG (iRD w) 0) 1)) ∧
      (∀ i op, (i, op) ∈ [(.swait t, 0x41), (.ssig t, 0x42), (.stry t, 0x43)] → (tl.sync.find h) = none → Ready s t op →
        exec i s = .next ((s.setTile t tl).tileFault t 5 0 h pc 0 false)) ∧
      (Ready s t 0x44 → exec (.await t) s = if reached (iCNT w) g then done tl 1 else stalls (.await (iCNT w) g.toNat)) ∧
      (Ready s t 0x45 → exec (.atest t) s = done (tl.setG (iRD w) (if reached (iCNT w) g then 1 else 0)) 1) ∧
      (∀ h n, t < 9216 → tl.core.act = .swait h n → s.enginesRun t → n ≤ tl.avail 3 h →
        exec (.swaitSatisfied t) s = done (tl.syncTake h n) 2) ∧
      (∀ cnt target, t < 9216 → tl.core.act = .await cnt target → s.enginesRun t → reached cnt (BitVec.ofNat 32 target) →
        exec (.awaitSatisfied t) s = done tl 2)) ∧
  (
  ∀ (s : State) (t : Nat) (ups : List (Nat × Bool)),
      let tl0 := s.tile t
      let tl := tl0.upsets ups
      let w := tl0.instr
      let pc := tl0.core.pc.toNat
      let ea := (tl0.gr (iRA w) + BitVec.ofInt 32 (sext (iIMM w) 15)).toNat
      let nb := bits w.toNat 10 5
      let a := (tl0.gr (iRA w)).toNat
      let b := (tl0.gr (iRD w)).toNat
      let enters (i : Instr) (x e : Nat) : Prop := Answers (exec i s) (fun u => ((u.tile t).engine e).queue = (tl0.engine e).queue ++ [BitVec.ofNat 128 (tl.mem.readLE x 16)] ∧
          (u.tile t).core.pc = tl0.core.pc + 1 ∧ (u.tile t).core.act = .run)
      (Ready s t 0x40 → ea < 2 ^ 22 → ea % 16 = 0 →
        ((tl.engine (iRD w)).queue.length < 16 → (tl.checkWords (ea / 8) 2).2 = none → enters (.iss t ups) ea (iRD w)) ∧
        (16 ≤ (tl.engine (iRD w)).queue.length →
          exec (.iss t ups) s = .next (s.setTile t { tl with core := { tl.core with act := .issStall (iRD w) ea } }))) ∧
      (∀ e x, t < 9216 → tl0.core.act = .issStall e x → s.enginesRun t → (tl.engine e).queue.length < 16 → x < 2 ^ 22 → x % 16 = 0 →
        (tl.checkWords (x / 8) 2).2 = none → enters (.orderEnqueue t ups) x e) ∧
      (Ready s t 0x48 → 0 < nb → nb ≤ 16 → a + 64 * nb ≤ 2 ^ 22 → a % 64 = 0 → b + 16 * nb ≤ 4096 → b % 16 = 0 →
        (tl.checkWords (a / 8) (8 * nb)).2 = none →
        Answers (exec (.ifill t ups) s) (fun u => (u.tile t).core.pc = tl0.core.pc + 1 ∧
          ∀ i, i < 4096 → (u.tile t).instrAt i =
            if b ≤ i ∧ i < b + 16 * nb then BitVec.ofNat 32 (tl.mem.readLE (a + 4 * (i - b)) 4) else tl0.instrAt i)) ∧
      (Ready s t 0x49 → s.member t →
        Answers (exec (.lock t) s) (fun u => (u.tile t).arrived = true ∧ (u.tile t).core.act = .lockStall ∧
          ∀ c, tl0.home = some c → ∃ r, (u.ctx c).arrivals = (s.ctx c).arrivals ++ [r] ∧ r.tile = t ∧ r.time = s.now ∧
            r.mask = tl0.lock.cargoMask ∧ r.vals = tl0.lock.contrib ∧ r.flags = tl0.lock.flagsOut)) ∧
      (Ready s t 0x49 → s.member t = false → exec (.lock t) s = .next ((s.setTile t tl0).tileFault t 1 0 0 pc 0 false)) ∧
      (Ready s t 0x4A → Answers (exec (.brk t) s) (fun u => (u.tile t).core.pc = tl0.core.pc + 1 ∧
        (s.debugOn t → tl0.core.stopReq = false → (u.tile t).core.stop = some .brk) ∧
        (s.debugOn t = false → tl0.core.stopReq = false → (u.tile t).core.stop = none))) ∧
      (t < 9216 → tl0.core.act = .run → tl0.faulted = false → tl0.core.stop = none → s.breaksAt t → s.tileClocked t →
        Answers (exec (.breakpointStop t) s) (fun u => (u.tile t).core = { tl0.core with stop := some .breakpoint })) ∧
      (t < 9216 → s.coreReady t → legal w = false →
        exec (.illegalInstruction t) s = .next (s.tileFault t 1 0 0 pc 0 false)))

/-- Clauses of R72, R74, R76, R77, R78, R146: an order leaves the head of its queue once its header checks and its wait pass, taking its wait
amount; it begins when the engine has none under way and no MMA's tail holds it back; when its work is done it applies its signal, saturating at 65,535.
The conventions of log entries 19 and 22 are the model's, not the spec's. -/
def Obligations.OrderPipeline : Prop :=
  ∀ (s : State) (t e : Nat),
    t < 9216 → e < 3 → s.enginesRun t →
    let tl := s.tile t
    let en := tl.engine e
    (∀ o q, en.pending = none → en.queue = o :: q → tl.headerCheck e o = none →
      (ordWE o → ordWN o ≤ tl.avail e (ordWObj o)) →
      Answers (exec (.orderLeavesHead t e) s) (fun u =>
        (u.tile t).engine e = { en with queue := q, pending := some o, taken := en.taken + 1, gated := false } ∧
        (∀ h, (u.tile t).syncCount h = tl.syncCount h - (if ordWE o && ordWObj o == h then ordWN o else 0)) ∧
        (u.tile t).core = tl.core ∧ (u.tile t).mem = tl.mem ∧ (∀ k, k ≠ t → u.tile k = s.tile k))) ∧
    (∀ o q f, en.pending = none → en.queue = o :: q → tl.headerCheck e o = some f →
      exec (.orderLeavesHead t e) s = .next (s.orderFault t e f false)) ∧
    (∀ o q, en.pending = none → en.queue = o :: q → tl.headerCheck e o = none → ordWE o → tl.avail e (ordWObj o) < ordWN o →
      exec (.orderLeavesHead t e) s = .next s) ∧
    (∀ o, en.pending = some o → en.exec = none →
      let x := tl.setEngine e { en with pending := none, exec := some o, scales := tl.dsScales }
      (tl.interlocked e o = true → exec (.orderBegin t e false) s = .next s) ∧
      (tl.interlocked e o = false → operandCheck e x (s.router t) o = none → exec (.orderBegin t e false) s = .next (s.setTile t x)) ∧
      (∀ f, tl.interlocked e o = false → operandCheck e x (s.router t) o = some f → exec (.orderBegin t e false) s = .next (s.orderFault t e f false))) ∧
    (∀ o rest, en.owed = o :: rest →
      Answers (exec (.orderSignal t e) s) (fun u =>
        (u.tile t).engine e = { en with owed := rest, orders := en.orders + 1 } ∧
        (∀ h, (u.tile t).syncCount h =
          if ordSE o && ordSObj o == h && (tl.sync.find h).isSome then min (tl.syncCount h + ordSN o) 65535 else tl.syncCount h) ∧
        ((∃ h, ordSE o ∧ ordSObj o = h ∧ (tl.sync.find h).isSome ∧ 65535 < tl.syncCount h + ordSN o) → (u.tile t).syncOverflow = true) ∧
        (u.tile t).core = tl.core ∧ (u.tile t).mem = tl.mem ∧ (∀ k, k ≠ t → u.tile k = s.tile k)))

/-- Clauses of R135 to R153, R174: an order that executes on a running engine does its work on its tile, and its engine then owes its
signal; a failed read faults the tile with INTEGRITY_FAILED instead (R91).
The conventions of log entry 156 are the model's, not the spec's. -/
def Obligations.OrdersDoTheirWork : Prop :=
  ∀ (s : State) (t : Nat) (ups : List (Nat × Bool)) (i : Instr) (e op : Nat) (o : Order) (r : OrdDone),
    let tl := s.tile t
    let x := tl.upsets ups
    (i, e, op, r) ∈ [(.mxeNop t, 0, 0x00, { tile := tl }), (.mxeLdtd t ups, 0, 0x01, workLdtd 0 x o), (.ldb t ups, 0, 0x02, workLdb x o),
      (.mma t ups, 0, 0x03, workMma x o), (.drain t, 0, 0x04, workDrain tl o), (.ldacc t ups, 0, 0x05, workLdacc x o),
      (.mxeStat t, 0, 0x06, workStat 0 tl o), (.vxeNop t, 1, 0x00, { tile := tl }), (.vxeLdtd t ups, 1, 0x01, workLdtd 1 x o),
      (.ldk t ups, 1, 0x02, workLdk x o), (.vxeStat t, 1, 0x06, workStat 1 tl o), (.vew t ups, 1, 0x10, workArith x o),
      (.vtr t ups, 1, 0x11, workArith x o), (.vred t ups, 1, 0x12, workArith x o), (.vsample t ups, 1, 0x13, workArith x o),
      (.vrand t ups, 1, 0x14, workArith x o), (.xeNop t, 2, 0x00, { tile := tl })] →
    t < 9216 → s.enginesRun t → (tl.engine e).exec = some o → ordOpcode o = op →
    Answers (exec i s) (fun u =>
      (r.bad = none → (u.tile t) = r.tile.setEngine e { r.tile.engine e with exec := none, owed := (r.tile.engine e).owed ++ [o] }) ∧
      (∀ a hw, r.bad = some (a, hw) →
        u = (r.taps.foldl (fun s p => s.tap t p) (s.setTile t r.tile)).orderFault t e { cause := 4, addr := a } hw))

/-- Clauses of R138, R148, R157, R141: what the loading orders of an engine leave. LDTD loads the descriptors that MASK selects, LDK the
constants, STAT writes its record and clears what it is asked to, and LDB fills the buffer it names. -/
def Obligations.LoadingOrders : Prop :=
  ∀ (t : Tile) (o : Order),
    let a := bits o.toNat 64 22
    let mask := bits o.toNat 86 16
    (∀ e u, t.readSpan a 512 = (u, none) →
      (workLdtd e t o).bad = none ∧
      ∀ i : Fin 16, (if e = 0 then (workLdtd e t o).tile.mtd[i] else (workLdtd e t o).tile.vtd[i]) =
        if bit mask i.val then BitVec.ofNat 256 (u.mem.readLE (a + 32 * i.val) 32) else if e = 0 then t.mtd[i] else t.vtd[i]) ∧
    (∀ u, t.readSpan a 512 = (u, none) →
      ∀ i : Fin 16, (workLdk t o).tile.vk[i] = if bit mask i.val then BitVec.ofNat 64 (u.mem.readLE (a + 8 * i.val) 8) else t.vk[i]) ∧
    (∀ e, e < 2 → Memory.wf t.mem →
      let u := (workStat e t o).tile
      let old := t.engine e
      u.mem.readLE a 8 = old.numstat.toNat ∧ u.mem.readLE (a + 8) 4 = old.lowCount.toNat ∧
      u.mem.readLE (a + 12) 4 = old.highCount.toNat ∧ u.mem.readLE (a + 16) 4 = old.nonfiniteCount.toNat ∧
      u.mem.readLE (a + 20) 4 = old.orders.toNat ∧ (∀ k, 24 ≤ k → k < 512 → u.mem.read (a + k) = 0#8) ∧
      (u.engine e).numstat = old.numstat &&& ~~~(BitVec.ofNat 8 (bits o.toNat 86 8)) ∧
      (bit o.toNat 94 → (u.engine e).lowCount = 0 ∧ (u.engine e).highCount = 0 ∧ (u.engine e).nonfiniteCount = 0)) ∧
    (∀ u, workLdb t o = { tile := u } →
      (if mmaBuf o then u.buf1 else u.buf0).isSome ∧ (if mmaBuf o then u.buf0 = t.buf0 else u.buf1 = t.buf1))

/-- Clauses of R142 to R144: MMA gives every row it addresses the tag of its mode and leaves every other row of the accumulator; DRAIN
changes a row only where it clears, which leaves it EMPTY.
Clauses of R138, R141 to R144, R149 to R153: what the work of an order can change in its tile. A vector order writes tile memory (with
its check bits), its numeric status and GEN_COUNT; a matrix order tile memory, its numeric status, the buffers and the
accumulators. Both note memory errors that their reads meet. Nothing else of the tile changes. -/
def Obligations.AccumulatorRows : Prop :=
  (
  ∀ (t : Tile) (o : Order),
      (checkMma t o = none → (workMma t o).bad = none →
        let t' := (workMma t o).tile
        let here (r : Nat) : Prop := bits o.toNat 71 8 ≤ r ∧ r < bits o.toNat 71 8 + bits o.toNat 79 9
        (∀ a r, a < 4 → r < 256 → ¬ (a = bits o.toNat 69 2 ∧ here r) → t'.accRow a r = t.accRow a r) ∧
        (∀ r, here r → (t'.accRow (bits o.toNat 69 2) r).hasTag (narrow (t.td 0 (mTd o)).fmt) (mmaE o) = true)) ∧
      (checkDrain t o = none →
       let t' := (workDrain t o).tile
       ∀ a r, a < 4 → r < 256 → t'.accRow a r =
         if bit o.toNat 92 ∧ a = bits o.toNat 68 2 ∧ bits o.toNat 70 8 ≤ r ∧ r < bits o.toNat 70 8 + bits o.toNat 78 9 then .empty
         else t.accRow a r)) ∧
  (
  ∀ (t : Tile) (o : Order),
      let stat (a b : Engine) : Engine :=
        { a with numstat := b.numstat, lowCount := b.lowCount, highCount := b.highCount, nonfiniteCount := b.nonfiniteCount }
      let mems (u : Tile) : Tile :=
        { t with mem := u.mem, chk := u.chk, ceCount := u.ceCount, ueCount := u.ueCount, memErrAddr := u.memErrAddr,
                 memCorrected := u.memCorrected, memPoison := u.memPoison }
      (let u := (workArith t o).tile
       u = { mems u with vxe := stat t.vxe u.vxe, gen := { t.gen with count := u.gen.count } }) ∧
      (∀ r ∈ [workLdb t o, workMma t o, workDrain t o, workLdacc t o],
        r.tile = { mems r.tile with mxe := stat t.mxe r.tile.mxe, buf0 := r.tile.buf0, buf1 := r.tile.buf1, acc := r.tile.acc }))

/-- Clauses of R175 to R178: a send order starts with nothing sent, injects its flits in order while the lane has a credit, and owes
its signal with the last; RECV ends when its counter has reached the target; PULL posts its request to the granule's wharf while
fewer than four of the tile are outstanding.
Clauses of R187, R190 to R194, R198 to R200: a granted flit leaves its input (a closed port or a missing route drops it, and a
header error that cannot be corrected becomes a link fault), a freed credit returns, matching contributions combine and unequal
ones are dropped together.
The conventions of log entries 8, 29, 31 and 33 are the model's, not the spec's. -/
def Obligations.ExchangeAndRouters : Prop :=
  (
  ∀ (s : State) (t : Nat) (ups : List (Nat × Bool)) (o : Order),
      let tl := s.tile t
      t < 9216 → s.enginesRun t → tl.xe.exec = some o →
      let ended (x : Tile) : Tile := { x with xe := { x.xe with exec := none, owed := x.xe.owed ++ [o] } }
      let reached : Bool := decide (0 ≤ (Tbl.get 0#32 tl.acnt (bits o.toNat 64 8) - BitVec.ofNat 32 (bits o.toNat 72 32)).toInt)
      (∀ i op, (i, op) ∈ [(.send t, 0x10), (.msend t, 0x11), (.comb t, 0x12)] → ordOpcode o = op → tl.sending = none →
        exec i s = .next (s.setTile t { tl with sending := some { sent := 0, block := 0 } })) ∧
      (ordOpcode o = 0x13 → tl.recvWait = false →
        exec (.recv t) s = .next (s.setTile t (if reached then ended tl else { tl with recvWait := true }))) ∧
      (ordOpcode o = 0x13 → tl.recvWait = true → reached →
        exec (.recvComplete t) s = .next (s.setTile t (ended { tl with recvWait := false }))) ∧
      (ordOpcode o = 0x14 → (s.wharf (granOf t)).outstanding (localIdx t) < 4 →
        Answers (exec (.pull t) s) (fun u => u.tile t = ended tl ∧
          (u.wharf (granOf t)).pulls = (s.wharf (granOf t)).pulls ++ [WharfPull.mk (localIdx t) (bits o.toNat 64 13) (bits o.toNat 77 16)
            (bits o.toNat 93 14) (bits o.toNat 107 8) 0])) ∧
      (∀ sd e x, tl.sending = some sd → (s.router t).route (bits o.toNat 93 12) = some e →
        (Tbl.get [] (s.router t).inq (rteLane e)).length < 8 →
        (if sd.sent % 8 = 0 then (tl.upsets ups).readSpan (xSRC o + 64 * sd.sent) 512 else (tl, none)) = (x, none) →
        (∀ v, exec (.flitInject t (ups, 0)) s = .next v → exec (.flitInject t (ups, 1)) s = .next (v.headerError t 0 1)) ∧
        (∀ hdr, 2 ≤ hdr → ∃ v : State, (v.router t).hdrUe = sat16 (s.router t).hdrUe 1 ∧ (v.router t).inq = (s.router t).inq ∧
          exec (.flitInject t (ups, hdr)) s = .next (v.inputFault t 0 true)) ∧
        Answers (exec (.flitInject t (ups, 0)) s) (fun u =>
          (sd.sent + 1 = xNFLIT o → (u.tile t).sending = none ∧ (u.tile t).xe.exec = none ∧ (u.tile t).xe.owed = tl.xe.owed ++ [o]) ∧
          (sd.sent + 1 < xNFLIT o → ∃ blk, (u.tile t).sending = some { sent := sd.sent + 1, block := blk }) ∧
          ((s.router t).arrivalDrop 0 { ch := xCH o, dst := 0, acnt := 0, lane := rteLane e, payload := 0 } = none →
          ∃ f, Tbl.get [] (u.router t).inq (rteLane e) = Tbl.get [] (s.router t).inq (rteLane e) ++ [f] ∧
            f.ch = xCH o ∧ f.dst = (xDST o + sd.sent) % 2 ^ 16 ∧ f.acnt = xACNT o ∧ f.bad = 0)))) ∧
  (
  ∀ (s : State) (t : Nat),
      t < 9216 →
      let r := s.router t
      (∀ lane o, o < 5 → lane < 8 → 0 < Tbl.get 0 r.returning (8 * o + lane) →
        Answers (exec (.creditReturn t o lane) s) (fun u =>
          Tbl.get 0 (u.router t).returning (8 * o + lane) + 1 = Tbl.get 0 r.returning (8 * o + lane) ∧
          Tbl.get 0 (u.router t).used (8 * o + lane) = Tbl.get 0 r.used (8 * o + lane) - 1)) ∧
      (∀ hdr bad c, bestCand ((r.cands 0).filter (s.credited t 0)) = some c → s.tileClocked t →
        Answers (exec (.routerForward t 0 hdr bad) s) (fun u => (u.router t).localOut = some (c.flit, c.out == 5, c.port))) ∧
      (∀ o hdr bad c v, 0 < o → o < 5 → bestCand ((r.cands o).filter (s.credited t o)) = some c → s.tileClocked t → r.open? o →
        s.neighbour t o = some v →
        let u := s.takeCand t c
        let k := 8 * o + c.flit.lane
        let used := (u.router t).used.set k (Tbl.get 0 (u.router t).used k + 1)
        exec (.routerForward t o hdr bad) s =
          .next ((u.setRouter t { u.router t with used := used }).arriveFlit v (opposite o) hdr { c.flit with bad := c.flit.bad ||| bad })) ∧
      (∀ o hdr bad c, 0 < o → o < 5 → bestCand ((r.cands o).filter (s.credited t o)) = some c → s.tileClocked t →
        r.open? o = false →
        exec (.routerForward t o hdr bad) s = .next ((s.takeCand t c).dropAt t c.flit.ch c.port c.flit.lane 0)) ∧
      (∀ ch ce e f g, r.route ch = some e → rteKind e = 2 → inPorts e = [0, 1] → r.head 0 (rteLane e) = some f →
        r.head 1 (rteLane e) = some g → f.ch = ch → g.ch = ch → r.ready.find ch = none → s.tileClocked t →
        Answers (exec (.combine t ch ce) s) (fun u =>
          (g.dst = f.dst → g.acnt = f.acnt →
            (u.router t).ready.find ch = some { f with payload := addPayload (rteMode e) f.payload g.payload, bad := f.bad ||| g.bad }) ∧
          (¬ (g.dst = f.dst ∧ g.acnt = f.acnt) → (u.router t).ready.find ch = none ∧
            (u.router t).mismatch = BitVec.ofNat 16 (min (r.mismatch.toNat + 1) 65535)))) ∧
      (∀ ce f p, r.localOut = some (f, false, p) → s.tileClocked t →
        Answers (exec (.flitCommit t ce) s) (fun u => (u.router t).localOut = none ∧
          (Memory.wf (s.tile t).mem → ∀ a, (u.tile t).mem.read a =
            if 64 * f.dst ≤ a ∧ a < 64 * f.dst + 64 then BitVec.ofNat 8 (f.payload.toNat / 256 ^ (a - 64 * f.dst)) else (s.tile t).mem.read a) ∧
          (∀ n, Tbl.get 0#32 (u.tile t).acnt n = Tbl.get 0#32 (s.tile t).acnt n + (if n = f.acnt then 1 else 0)) ∧
          (∀ i, i < 8 → ((u.tile t).chk.find (8 * f.dst + i) = some .poisoned ↔ f.bad.getLsbD i = true)) ∧
          (∀ k, k ≠ t → u.tile k = s.tile k))))

/-- Clauses of R194, R214 to R217, R222, R239, R329: what a wharf does with the flits of its tiles: it takes them in the order of
local index, accepts READ and FENCE commands, turns write and port flits into barges with the section ends that waited for them,
completes fences and grants pulls. While its tenant is being reset it takes and grants nothing.
The conventions of log entries 34, 35 and 41 are the model's, not the spec's. -/
def Obligations.WharfCommands : Prop :=
  ∀ (s : State) (g : Nat),
    g < 576 →
    let w := s.wharf g
    let waiting (u : State) : List Barge := Tbl.get [] u.egress g ++ (u.wharf g).backlog
    (∀ i f p, i < 16 → s.wharfFlit (tileAt g i) = some (f, p) → (∀ j, j < i → s.wharfFlit (tileAt g j) = none) →
      Answers (exec (.wharfTakeFlit g) s) (fun u => (u.router (tileAt g i)).localOut = none ∧
        (s.wharfStopped g = true → u.wharf g = w) ∧
        (s.wharfStopped g = false → w.controlOf f.ch = none → (w.dataOf f.ch).isSome → (u.wharf g).inq = w.inq ++ [(i, f, 0)]) ∧
        (s.wharfStopped g = false → w.controlOf f.ch = none → w.dataOf f.ch = none →
          u.wharf g = w ∧ (u.router (tileAt g i)).miss = BitVec.ofNat 16 (min ((s.router (tileAt g i)).miss.toNat + 1) 65535)))) ∧
    (∀ i c f n, w.headCmd = some (i, c, f) → s.tenantOfGran g = some n → cmdOp c = 1 → cmdInvalid (w.wst i) c = false →
      cmdLoff c + cmdCount c ≤ wstLsize (w.wst i) → w.reads = [] → w.fences.length < 64 → w.backlog = [] →
      Answers (exec (.streamRead g) s) (fun u =>
        (u.wharf g).reads = [{ id := w.nextOp, stream := i, loff := cmdLoff c, count := cmdCount c, moff := cmdMoff c }] ∧
        (∀ m ∈ landing (w.wst i) (cmdMoff c) (cmdCount c), (Tbl.get {} (u.wharf g).moor m).present = false) ∧
        waiting u = Tbl.get [] s.egress g ++ s.readBarges g n i w.nextOp (w.wst i) (cmdLoff c) (cmdCount c) (cmdMoff c))) ∧
    (∀ i c f n, w.headCmd = some (i, c, f) → s.tenantOfGran g = some n → cmdOp c ≠ 2 →
      (cmdInvalid (w.wst i) c = true → exec (.streamRead g) s = .next ((s.wharfRefuse g i 1 (cmdLoff c)).modWharf g Wharf.nextCmd)) ∧
      (cmdInvalid (w.wst i) c = false → wstLsize (w.wst i) < cmdLoff c + cmdCount c →
        exec (.streamRead g) s = .next ((s.wharfRefuse g i 0 (cmdLoff c)).modWharf g Wharf.nextCmd))) ∧
    (∀ i c f, w.headCmd = some (i, c, f) → cmdOp c = 2 → cmdInvalid (w.wst i) c = false → w.reads.length + w.fences.length < 64 →
      Answers (exec (.streamFence g) s) (fun u =>
        (u.wharf g).fences = w.fences ++ [{ id := w.nextOp, stream := i, tile := cmdTile c, dst := f.dst, acnt := f.acnt }])) ∧
    (∀ f, w.fences.find? w.fenceReady = some f → f.tile < 16 →
      let k := Tbl.get {} w.counts f.stream
      Answers (exec (.fenceComplete g) s) (fun u =>
        (u.wharf g).fences = w.fences.filter (fun h => h.id ≠ f.id) ∧ Tbl.get {} (u.wharf g).counts f.stream = {} ∧
        u.tile (tileAt g f.tile) = (s.tile (tileAt g f.tile)).commit f.dst f.acnt
          (BitVec.ofNat 512 (packLE [(0, 4, k.done), (4, 4, k.failed), (8, 4, k.refused)])) 0)) ∧
    (∀ i j f x rest n, w.inq = (j, f, x) :: rest → s.tenantOfGran g = some n → w.dataOf f.ch = some i → wstKind (w.wst i) = 1 →
      w.backlog = [] →
      let loff := f.acnt * 2 ^ 16 + f.dst
      let line := wstLbase (w.wst i) + loff
      (loff < wstLsize (w.wst i) →
        Answers (exec (.holdWriteFlit g) s) (fun u => (u.wharf g).writes = w.writes ++ [(w.nextOp, i, loff)] ∧
          ∃ b : Barge, waiting u = Tbl.get [] s.egress g ++ [b] ∧ b.ty = (if wstAcc (w.wst i) then 3 else 2) ∧ b.tenant = n ∧
            b.line = line ∧ b.payload = f.payload ∧ b.bad = f.bad ∧ b.wmask = 0xFF ∧ b.src = g ∧
            (wstBasin (w.wst i) = false → b.dst = 576 + stackOf (dataLine line)))) ∧
      (wstLsize (w.wst i) ≤ loff →
        exec (.holdWriteFlit g) s = .next ((s.wharfRefuse g i 0 loff).modWharf g Wharf.popFlit))) ∧
    (∀ i j f x rest, w.inq = (j, f, x) :: rest → w.dataOf f.ch = some i → wstKind (w.wst i) = 2 → w.backlog = [] →
      Answers (exec (.portOutFlit g) s) (fun u => ∃ (b : Barge) (ends : List Barge),
        waiting u = Tbl.get [] s.egress g ++ b :: ends ∧ b.ty = 4 ∧ b.payload = f.payload ∧ b.bad = f.bad ∧ b.sect = false ∧
        (∀ e ∈ ends, e.sect = true ∧ e.stream = i) ∧ ends.length = (w.sects.filter (fun x => x.1 == i && x.2 ≤ 1)).length)) ∧
    (∀ p rest, w.pulls = p :: rest → (Tbl.get {} w.moor p.line).present → s.granClocked g → s.wharfStopped g = false → p.tile < 16 →
      rest.all (fun q => (Tbl.get {} w.moor q.line).present) →
      let m := Tbl.get {} w.moor p.line
      Answers (exec (.pullGrant g) s) (fun u =>
        (u.wharf g).pulls = (if p.nflit ≤ p.sent + 1 then rest else { p with sent := p.sent + 1 } :: rest) ∧
        (u.tile (tileAt g p.tile)).mem =
          ((s.tile (tileAt g p.tile)).commit ((p.dst + p.sent) % 2 ^ 16) p.acnt m.data m.bad).mem ∧
        (u.tile (tileAt g p.tile)).acnt = ((s.tile (tileAt g p.tile)).countFlit p.acnt).acnt))

/-- Clauses of R207, R208, R211, R215, R217, R218, R221, R325, R330: barges of the slots' owners cross the canal in the order they
were sent, unless the header is lost, and give their receive-queue credit back; a read reply lands in the mooring buffer, an
acknowledgement counts for the next fence, and a port unit lands in its stream's section.
The conventions of log entries 38, 39, 41 and 175 are the model's, not the spec's. -/
def Obligations.CanalAndLanding : Prop :=
  ∀ (s : State) (src g : Nat) (b : Barge) (rest : List Barge),
    (∀ ep dst hdr bad q, ep < 627 → dst < 627 → 576 ≤ ep → hdr < 2 →
      takeFirst (fun b => b.goesTo dst && s.maySend ep b) (Tbl.get [] s.egress ep) = some (b, q) → 4 < b.ty → b.mc = false →
      Answers (exec (.bargeSend ep dst hdr bad) s) (fun u =>
        u.transit = s.transit ++ [{ b with bad := b.bad ||| bad, credit := none }] ∧ Tbl.get [] u.egress ep = q ∧
        (∀ p id, b.credit = some (p, id) → Tbl.get 0 (u.port p).freed id = Tbl.get 0 (s.port p).freed id + 1))) ∧
    (∀ ep dst bad q, ep < 627 → dst < 576 → 576 ≤ ep →
      takeFirst (fun b => b.goesTo dst && s.maySend ep b) (Tbl.get [] s.egress ep) = some (b, q) → b.mc = false →
      Answers (exec (.bargeSend ep dst 2 bad) s) (fun u => u.transit = s.transit ∧ Tbl.get [] u.egress ep = q ∧
        (u.wharf dst).status = (s.wharf dst).status ||| 16#6)) ∧
    (∀ ep dst hdr bad, ep < 627 → dst < 627 → 576 ≤ ep → (∀ b ∈ Tbl.get [] s.egress ep, s.maySend ep b = false) →
      exec (.bargeSend ep dst hdr bad) s = .next s) ∧
    (g < 576 → s.arriving src g = some (b, rest) → s.discards b.tenant = false →
      let w := s.wharf g
      (∀ rd, b.ty = 5 → w.reads.find? (fun r => r.id == b.op) = some rd → b.status = 0 → b.poison = false → b.retry = false →
        b.idx < 2 ^ 20 → rd.got = [] → wstXmode (w.wst rd.stream) = 0 →
        Answers (exec (.rdRpl src g) s) (fun u => u.transit = rest ∧
          (let m := Tbl.get {} (u.wharf g).moor ((rd.moff + b.idx) % 8192)
           m.data = b.payload ∧ m.bad = b.bad ∧ m.present = true) ∧
          (∀ k, k ≠ (rd.moff + b.idx) % 8192 → Tbl.get {} (u.wharf g).moor k = Tbl.get {} w.moor k))) ∧
      (∀ i loff, b.ty = 6 → w.writes.find? (fun p => p.1 == b.op) = some (b.op, i, loff) →
        Answers (exec (.wrAck src g) s) (fun u => u.transit = rest ∧ (u.wharf g).writes = w.writes.filter (fun p => p.1 ≠ b.op) ∧
          (let old := Tbl.get {} w.counts i
           Tbl.get {} (u.wharf g).counts i =
             if b.status = 2 then { old with refused := old.refused + 1 }
             else if b.status = 1 then { old with done := old.done + 1, failed := old.failed + 1 }
             else { old with done := old.done + 1 }) ∧
          (b.status = 2 → (u.wharf g).status.getLsbD 0 = true) ∧ (b.status = 1 → (u.wharf g).status.getLsbD 2 = true))) ∧
      (b.ty = 7 → wstValid (w.wst b.stream) = true → wstKind (w.wst b.stream) = 3 →
        let e := w.wst b.stream
        let sc := Tbl.get {} w.sections b.stream
        let m := piSbase e + sc.index * piSlines e + sc.offset
        (b.sect = false → sc.offset < piSlines e →
          Answers (exec (.portIn src g) s) (fun u => u.transit = rest ∧
            Tbl.get {} (u.wharf g).moor (m % 8192) = { data := b.payload, bad := b.bad, present := true, retry := b.retry } ∧
            Tbl.get {} (u.wharf g).sections b.stream = { sc with offset := sc.offset + 1 })) ∧
        (b.sect = true → Answers (exec (.portIn src g) s) (fun u =>
          Tbl.get {} (u.wharf g).sections b.stream = { index := (sc.index + 1) % (piDepth e + 1), offset := 0 }))))

/-- Clauses of R224, R226, R228, R234 to R239, R252, R255: a controller accepts reads and writes of lines in the requester's window
(others are answered WINDOW_RANGE, and writes of a tenant that is being reset are dropped), makes one access in an owner's slot
and answers it, drops merge entries whose window is over, and scrubs.
The conventions of log entries 41, 42, 153, 155 and 176 are the model's, not the spec's. -/
def Obligations.HoldAccesses : Prop :=
  ∀ (s : State) (src k : Nat) (b : Barge) (rest : List Barge),
    k < 32 →
    (s.arriving src (576 + k) = some (b, rest) →
      (b.ty = 1 → b.taken = b.count → s.mayRead b (b.line + b.taken) = true → (s.stack k).merges = [] →
        Answers (exec (.rdReq src k) s) (fun u => u.transit = rest ∧ ∃ o : HoldOp, (u.stack k).ops = (s.stack k).ops ++ [o] ∧
          o.ty = 1 ∧ o.line = b.line + b.taken ∧ o.tenant = b.tenant ∧ o.src = src ∧ o.op = b.op)) ∧
      (b.ty = 1 → b.taken = b.count → s.mayRead b (b.line + b.taken) = false →
        Answers (exec (.rdReq src k) s) (fun u => ∃ r : Barge, Tbl.get [] u.egress (576 + k) = Tbl.get [] s.egress (576 + k) ++ [r] ∧
          r.ty = 5 ∧ r.status = 2 ∧ r.dst = src)) ∧
      (∀ i ty, (i, ty) ∈ [(.wr src k, 2), (.accWr src k, 3)] → b.ty = ty →
        (s.inWindow b.tenant b.line = true → s.discards b.tenant = false → b.line < viewBase →
          (ty = 3 → (s.isGradient (s.role b.line) || isIncrement (s.role b.line)) = true) →
          Answers (exec i s) (fun u => u.transit = rest ∧ ∃ o : HoldOp, (u.stack k).ops = (s.stack k).ops ++ [o] ∧ o.ty = ty ∧
            o.line = b.line ∧ o.payload = b.payload ∧ o.wmask = b.wmask ∧ o.bad = b.bad ∧ o.src = src)) ∧
        (s.discards b.tenant = true → b.prov = false → exec i s = .next { s with transit := rest }) ∧
        (s.inWindow b.tenant b.line = false → s.discards b.tenant = false → b.prov = false →
          Answers (exec i s) (fun u => u.hold = s.hold ∧ (u.stack k).ops = (s.stack k).ops ∧
            ∃ r : Barge, Tbl.get [] u.egress (576 + k) = Tbl.get [] s.egress (576 + k) ++ [r] ∧ r.ty = 6 ∧ r.status = 2)))) ∧
    (∀ ten err o, s.nextAccess ten (s.stack k).ops [] = some o → (s.stack k).refreshOnly = false → o.merged = false →
      (o.ty = 1 → o.line < viewBase → err = 0 →
        Answers (exec (.holdAccessSlot k ten err) s) (fun u => u.hold = s.hold ∧ ∃ r : Barge,
          Tbl.get [] u.egress (576 + k) = Tbl.get [] s.egress (576 + k) ++ [r] ∧ r.ty = 5 ∧ r.status = 0 ∧ r.dst = o.src ∧
          r.payload = s.holdLine o.line ∧ r.poison = s.linePoison o.line)) ∧
      (o.ty = 2 → o.wmask = 0xFF → o.bad = 0 → s.lineLost o.line = false → s.role o.line = none → Memory.wf s.hold = true →
        Answers (exec (.holdAccessSlot k ten err) s) (fun u => u.holdLine o.line = o.payload ∧
          (u.lineMeta o.line).poison = false ∧ (∀ l, l ≠ o.line → u.holdLine l = s.holdLine l ∧ u.lineMeta l = s.lineMeta l) ∧
          ∃ r : Barge, Tbl.get [] u.egress (576 + k) = Tbl.get [] s.egress (576 + k) ++ [r] ∧ r.ty = 6 ∧ r.status = 0))) ∧
    (∀ m ms, (s.stack k).merges = m :: ms → m.ready.isSome → (m.closed = true ∨ m.opened + 128 ≤ s.now) →
      Answers (exec (.mergeWindowEnd k) s) (fun u => (u.stack k).merges = ms)) ∧
    (∀ line err, line < viewBase → s.linePoison line = false →
      (err = 0 → exec (.patrolScrub line err) s = .next s) ∧
      (err = 1 → Answers (exec (.patrolScrub line err) s) (fun u => u.hold = s.hold ∧
        (u.stack (stackOf line)).corrected = BitVec.ofNat 32 (min ((s.stack (stackOf line)).corrected.toNat + 1) (2 ^ 32 - 1)))) ∧
      (s.verdict line err = 3 → Answers (exec (.patrolScrub line err) s) (fun u => (u.lineMeta line).poison = true ∧
        (u.stack (stackOf line)).poisoned = BitVec.ofNat 16 (min ((s.stack (stackOf line)).poisoned.toNat + 1) 65535))))

/-- Clauses of R39, R44, R50, R53, R54, R56, R58, R60 to R62, R70, R170, R422: the locks of a domain. The Lockkeeper and the HUUs
arrive, each at its time, the root fires once the whole domain has arrived, a release becomes visible member by member, and a
lock that does not fire in time is reported.
Clauses of R56, R59 to R61: the gather of a device without children carries the OR of the arrived tiles' flags, the latest
arrival's time, and a sum in each slot that some arrived tile contributes to.
The conventions of log entries 21 and 52 are the model's, not the spec's. -/
def Obligations.LockCommands : Prop :=
  (
  ∀ (s : State) (c : Nat),
      c < 1024 →
      let cx := s.ctx c
      let k := if cx.started then cx.index + 1 else 0
      (cx.state = .running → cx.scalesDue = some k → cx.lkArrived = false → cx.scalesLeft = [] → s.lk.state ≠ .failed →
        Answers (exec (.lockkeeperArrival c) s) (fun u => (u.ctx c).lkArrived = true ∧ (u.ctx c).lkTime = s.now ∧ (∀ d, d ≠ c → u.ctx d = s.ctx d))) ∧
      (∀ slot v, cx.scalesLeft.find? (fun p => p.1 == slot) = some (slot, v) → s.lk.state ≠ .failed →
        Answers (exec (.delayedScaleWrite c slot) s) (fun u => (u.ctx c).scalesLeft = cx.scalesLeft.filter (fun p => p.1 ≠ slot) ∧
          (∀ t, (s.tile t).home = some c → Tbl.get 0x7F (u.tile t).nmScale slot = v) ∧
          (∀ t, (s.tile t).home ≠ some c → u.tile t = s.tile t))) ∧
      (∀ h, h < 32 → cx.state = .running → (s.huuMembers c).contains h → (cx.huuArrived.any (fun p => p.1 == h)) = false →
        cx.huuHold = false → s.huuDone c h k →
        ∀ waited, Answers (exec (.huuArrival c h waited) s) (fun u => (u.ctx c).firstArrival.isSome ∧
          ∃ cause, (u.ctx c).huuArrived = cx.huuArrived ++ [(h, s.now, cause)])) ∧
      (s.fireReady c → (s.gatherOf c).mismatch = false → (s.gatherOf c).abort = false → cx.staged = none → cx.spans = false →
        cx.upd.run = none → k < 2 ^ 48 - 1 →
        Answers (exec (.lockFire c) s) (fun u => (u.ctx c).index = k ∧ (u.ctx c).fireTime = s.now ∧ (u.ctx c).started = true ∧
          (u.ctx c).arrivals = [] ∧ (u.ctx c).huuArrived = [] ∧ (u.ctx c).firstArrival = none ∧
          ((s.gatherOf c).halt = false → (u.ctx c).state = .running ∧ (u.ctx c).visibleAt = s.now + 48 ∧ (u.ctx c).huuHold = true ∧
            (∀ t, (s.tile t).home = some c → (u.tile t).holdRelease = true) ∧
            ∃ r : Release, (u.ctx c).release = some r ∧ r.index = k ∧ r.fire = s.now ∧ r.flags = (s.gatherOf c).flags ∧
              r.presence = (s.gatherOf c).presence) ∧
          ((s.gatherOf c).halt = true → (u.ctx c).state = .halted ∧ (u.ctx c).heldRelease.isSome))) ∧
      (s.fireReady c = false → exec (.lockFire c) s = .next s) ∧
      (∀ r m, cx.release = some r → cx.visibleAt ≤ s.now → m < 9216 → (s.tile m).home = some c → (s.tile m).holdRelease = true →
        s.tileClocked m → (s.tile m).core.stopReq = false →
        Answers (exec (.lockRelease c m) s) (fun u =>
          let x := u.tile m
          x.lock.index = BitVec.ofNat 48 r.index ∧ x.lock.cargo = r.cargo ∧ x.lock.flagsIn = r.flags ∧ x.arrived = false ∧
          x.holdRelease = false ∧ x.retryCause = 0 ∧
          ((s.tile m).core.act = .lockStall → x.core.act = .run ∧ x.core.pc = (s.tile m).core.pc + 1) ∧
          ((s.tile m).core.act = .off → x.core.act = .run ∧ x.core.pc = (s.tile m).core.pc) ∧
          (∀ t, t ≠ m → u.tile t = s.tile t))) ∧
      (∀ r, cx.release = some r → cx.visibleAt ≤ s.now → cx.huuHold = true →
        Answers (exec (.lockRelease c 9216) s) (fun u => (u.ctx c).huuIndex = r.index ∧ (u.ctx c).huuHold = false)) ∧
      (∀ t0, (if cx.elastic then cx.firstArrival else if cx.started then some (cx.fireTime + cx.period) else none) = some t0 →
        cx.state = .running → s.isRoot c → t0 + 1000 * cx.stretchLimit < s.now → cx.overdueFor ≠ some k →
        Answers (exec (.lockOverdue c) s) (fun u => (u.ctx c).overdue = true ∧ (u.ctx c).overdueFor = some k))) ∧
  (
  ∀ (s : State) (c : Nat),
      (s.ctx c).childMarkers = [] →
      let m := s.gatherOf c
      let as := (s.ctx c).arrivals
      (∀ i, m.flags.getLsbD i = as.any (fun a => a.flags.getLsbD i)) ∧
      (∀ n, n < 4 → m.presence.getLsbD n = as.any (fun a => a.mask.getLsbD n)) ∧
      (∀ a ∈ as, a.time ≤ m.latest) ∧
      (m.latest = 0 ∨ (∃ a ∈ as, a.time = m.latest) ∨ (∃ p ∈ (s.ctx c).huuArrived, p.2.1 = m.latest) ∨
        ((s.ctx c).lkArrived = true ∧ (s.ctx c).lkTime = m.latest)))

/-- Clauses of R261, R265 to R268, R442: the update units process a block, or a factor block, of the sweep under way once, in any order; a
block with a poisoned line, or with mixed stamps, stays unchanged and sets STATE_POISON.
The conventions of log entries 46, 47 and 50 are the model's, not the spec's. -/
def Obligations.UpdateUnitCommands : Prop :=
  ∀ (s : State) (n b err : Nat) (r : StepRun),
    n < 16384 → shValid (s.shard n) = true →
    let c := s.shardCtx n
    let cx := s.ctx c
    let e := s.shard n
    cx.sweeping = some r →
    (shFact e = true → b < factorBlocks e → cx.upd.fpass = true → cx.huuReached r.lock = true → r.factorDone.contains (n, b) = false →
      Answers (exec (.factorPass n b err) s) (fun u =>
        ∃ q, (u.ctx c).upd.run = some q ∧ q.factorDone = (n, b) :: r.factorDone ∧ q.blocksDone = r.blocksDone)) ∧
    (b < shNblk e → cx.upd.fpass = false → cx.huuReached r.lock = true → r.blocksDone.contains (n, b) = false →
      cx.aborting = false →
      let base := shBbase e + 64 * b
      let x := s.checkLine base err
      let spoilt := (List.range 64).any (fun i => x.linePoison (base + i)) || x.mixedStamps n b
      Answers (exec (.updateBlock n b err) s) (fun u =>
        (∃ q, (u.ctx c).upd.run = some q ∧ q.blocksDone = (n, b) :: r.blocksDone ∧ q.factorDone = r.factorDone) ∧
        (spoilt = true → u.hold = x.hold ∧ (err < 4 → u.hold = s.hold) ∧ (u.ctx c).upd.ustatus &&& usStatePoison = usStatePoison) ∧
        (∀ i, u.linePoison i = x.linePoison i ∨ (base ≤ i ∧ i < base + 64))))

/-- Clauses of R322, R336 to R339, R444: the training of a port: what each event of the link does to the state of the port it comes to.
The conventions of log entry 64 are the model's, not the spec's. -/
def Obligations.PortTraining : Prop :=
  ∀ (s : State) (p : Nat),
    p < 56 →
    let q := s.port p
    (q.state ≠ .down → q.state ≠ .failed → q.state ≠ .signal →
      Answers (exec (.lossOfSignal p) s) (fun u => PortOnly s u p ∧ (u.port p).state = .signal ∧ (u.port p).width = 0 ∧
        (u.port p).signalLostAt = some s.now)) ∧
    (∀ w, s.portOn p = true → (q.state = .down ∨ q.state = .signal) → (w = 4 ∨ w = 2 ∨ w = 1) →
      Answers (exec (.signalDetected p w) s) (fun u => PortOnly s u p ∧ (u.port p).state = .align ∧ (u.port p).width = w ∧
        (u.port p).stateSince = s.now)) ∧
    (q.state = .align →
      Answers (exec (.alignLock p) s) (fun u => PortOnly s u p ∧ (u.port p).state = .negotiate ∧
        (u.port p).sysq = q.sysq ++ [helloUnit s p])) ∧
    (∀ sl x, q.headLink lHELLO = some (sl, x) → q.state = .negotiate →
      Answers (exec (.linkHello p) s) (fun u => (u.port p).rxq = q.rxq.drop 1 ∧ (∀ r, r ≠ p → u.port r = s.port r) ∧
        (s.wiringOk p x.body.toNat = false → (u.port p).state = .negotiate ∧ (u.port p).shows psWiring) ∧
        (s.wiringOk p x.body.toNat = true → commonVersion x.body.toNat = none →
          (u.port p).state = .negotiate ∧ (u.port p).shows psVersion) ∧
        (∀ v, s.wiringOk p x.body.toNat = true → commonVersion x.body.toNat = some v →
          (u.port p).state = .delay ∧ (u.port p).vmajor = v / 256 ∧ (u.port p).vminor = v % 256 ∧
          (u.port p).partner = bits (fieldLE x.body.toNat 4 2) 0 14))) ∧
    (∀ f, q.state = .delay →
      Answers (exec (.delayMeasured p f) s) (fun u => (u.port p).fdelay = f % 4096 ∧ (∀ r, r ≠ p → u.port r = s.port r) ∧
        (u.port p).state = if s.fabric.fmax < f then .delay else .tables)) ∧
    (∀ peer, q.state = .tables → q.tablesAgree peer = true →
      Answers (exec (.tablesCheck p peer) s) (fun u => (u.port p).state = .up ∧ (u.port p).retrainStart = none ∧
        (u.port p).nakCount = 0 ∧ (u.port p).replay = q.replay ∧ (∀ r, r ≠ p → u.port r = s.port r))) ∧
    (∀ b, (q.state, b) ∈ [(LinkState.signal, 250000000), (.align, 1000000), (.negotiate, 100000), (.delay, 100000), (.tables, 100000)] →
      q.stateSince + b ≤ s.now →
      Answers (exec (.trainingTimeout p) s) (fun u => PortOnly s u p ∧ (u.port p).stateSince = s.now ∧
        (u.port p).state = if q.state = .align then .signal else q.state)) ∧
    (∀ w, q.state.carries = true → (w = 4 ∨ w = 2 ∨ w = 1) → w < q.width →
      Answers (exec (.laneFault p w) s) (fun u => (u.port p).state = .align ∧ (u.port p).width = w ∧
        (u.port p).retrainStart = some s.now ∧ (u.port p).shows psRetrain ∧ (∀ r, r ≠ p → u.port r = s.port r))) ∧
    (q.state = .up → (8 ≤ q.nakCount ∨ (q.replay ≠ [] ∧ q.ackAt + 100000 ≤ s.now)) →
      Answers (exec (.ackTimeout p) s) (fun u => PortOnly s u p ∧ (u.port p).state = .align ∧ (u.port p).retrainStart = some s.now ∧
        (u.port p).nakCount = 0 ∧ (u.port p).replay = q.replay)) ∧
    (∀ t, q.retrainStart = some t → q.state ≠ .up → q.state ≠ .failed → t + 1000000 ≤ s.now →
      Answers (exec (.retrainTimeout p) s) (fun u => (u.port p).state = .failed ∧ (u.port p).width = 0)) ∧
    (∀ t, q.timeRetrainAt = some t → s.fabric.drifting = true → t + 1000000 ≤ s.now →
      Answers (exec (.timeRetrainTimeout p) s) (fun u =>
        (q.timeRetrains < 2 → PortOnly s u p ∧ (u.port p).timeRetrains = q.timeRetrains + 1 ∧ (u.port p).state = q.state) ∧
        (2 ≤ q.timeRetrains → (u.port p).state = .failed)))

/-- Clauses of R317, R320 to R322: a block with a good code and the next number is taken and acknowledges; any other is discarded
with all that follow until a replay; a NAK asks for the replay, which puts the blocks after the last acknowledged one on the
link again with REPLAY and their numbers.
The conventions of log entries 62 and 158 are the model's, not the spec's. -/
def Obligations.BlocksAndRetry : Prop :=
  ∀ (s : State) (p seq ack : Nat) (crc : Option Nat) (time : Nat × Nat × Nat) (nak replay retrain : Bool)
      (units : List (Nat × Nat × Nat × Nat)),
    p < 56 →
    let q := s.port p
    let good := crc = some (blockCrc (blockUnits units) (controlLow seq ack nak replay retrain time.2.2))
    (q.state.carries = true → (q.rxReplayWait = true → replay = true) → good → seq % 4096 = (q.rxSeq + 1) % 4096 →
      Answers (exec (.blockReceive p crc seq ack nak replay retrain time units) s) (fun u =>
        (u.port p).rxSeq = seq % 4096 ∧ (u.port p).rxCount = q.rxCount + 1 ∧ (u.port p).rxReplayWait = false ∧
        (u.port p).sendNak = false ∧ (u.port p).replay = ackBlocks (ack % 4096) q.replay ∧
        (nak = true → (u.port p).replayFrom = some (ack % 4096)) ∧
        (∃ l, (u.port p).rxq = q.rxq ++ l ∧ l.length = (units.filter (fun x => x.2.1 ≠ 0 ∧ x.1 < 80)).length ∧
          ∀ x ∈ l, x.2.1 = replay) ∧
        (u.port p).state = (if retrain = true ∧ q.state = .up then .align else q.state) ∧
        (∀ r, r ≠ p → u.port r = s.port r))) ∧
    (q.state.carries = true → (q.rxReplayWait = true → replay = true) → (¬good ∨ seq % 4096 ≠ (q.rxSeq + 1) % 4096) →
      Answers (exec (.blockReceive p crc seq ack nak replay retrain time units) s) (fun u => PortOnly s u p ∧
        (u.port p).rxSeq = q.rxSeq ∧ (u.port p).rxq = q.rxq ∧ (u.port p).replay = q.replay ∧
        (u.port p).rxReplayWait = true ∧ (u.port p).sendNak = true ∧ (u.port p).shows psCrc)) ∧
    (q.state.carries = true → q.rxReplayWait = true → replay = false →
      exec (.blockReceive p crc seq ack nak replay retrain time units) s = .next s) ∧
    (∀ n, q.replayFrom = some n → q.state = .up →
      Answers (exec (.blockReplay p) s) (fun u => PortOnly s u p ∧ (u.port p).replayFrom = none ∧ (u.port p).replay = q.replay ∧
        (u.port p).shows psReplay ∧ (u.port p).wire.map Prod.fst = ackBlocks n q.replay ∧
        (∀ w ∈ (u.port p).wire, bits w.2.toNat 0 12 = w.1.seq % 4096 ∧ bit w.2.toNat 25 = true)))

/-- Clauses of R320, R323 to R326: the frame moves on to the slot; what the slot carries is the next unit of its owner where the owner holds
a credit, a marker pair, or a LINK unit, and the blocks keep every unit sent in its order until it is acknowledged.
The conventions of log entries 63, 64 and 65 are the model's, not the spec's. -/
def Obligations.UnitSending : Prop :=
  ∀ (s : State) (p slot : Nat),
    p < 56 → slot < 512 →
    let q := s.port p
    let skip := (slot + 512 - q.slotPos % 512) % 512
    let pos := q.slotPos + skip
    q.state.carries = true → (q.state = .up → q.replayFrom = none) → q.buffered + (q.slotPos % 80 + skip) / 80 < 64 →
    Answers (exec (.unitSend p slot) s) (fun u => (∀ r, r ≠ p → u.port r = s.port r) ∧
      (pos % 512 = slot) ∧
      (slot % 32 = 1 → (u.port p).carried = q.carried ∧ (u.port p).slotPos = pos + 1) ∧
      (∀ x r, slot % 32 = 16 → q.sysq = x :: r →
        (u.port p).carried = q.carried ++ [(pos % 80, x)] ∧ (u.port p).sysq = r ∧ (u.port p).slotPos = pos + 1) ∧
      (∀ e a b r, slot % 32 = 0 → q.state = .up → q.gmptTx.find (slot / 32) = some e →
        Tbl.get [] s.fabric.markers (65536 * trunkOf p + bits e.toNat 0 16) = (a, b) :: r →
        (u.port p).carried = q.carried ++ [(pos % 80, a), ((pos + 1) % 80, b)] ∧ (u.port p).slotPos = pos + 2) ∧
      (∀ e x r, slot % 32 ≠ 0 → slot % 32 ≠ 1 → slot % 32 ≠ 16 → q.state = .up → q.fsltTx.find slot = some e →
        let id := bits e.toNat 0 16
        Tbl.get [] q.queues id = x :: r →
        (q.hasCredit id = true → (u.port p).carried = q.carried ++ [(pos % 80, x)] ∧ Tbl.get [] (u.port p).queues id = r ∧
          Tbl.get 0 (u.port p).creditUsed id = Tbl.get 0 q.creditUsed id + 1) ∧
        (q.hasCredit id = false → (u.port p).carried = q.carried ∧ (u.port p).queues = q.queues)))

/-- Clauses of R316, R318, R319, R324, R325, R330, R438: what a unit received on a port does, and that the credit of a unit that
goes on returns with its barge.
Clauses of R445, R446: after the failure of a port its partner's report moves its units, and what a failed Basin port still owed
is asked for again, each line once.
The conventions of log entries 38, 66, 158 and 174 are the model's, not the spec's. -/
def Obligations.UnitReceiptAndFailedPorts : Prop :=
  (
  ∀ (s : State) (p : Nat),
      p < 56 →
      let q := s.port p
      let ep := portEndpoint p
      (∀ c k poison sect sl rp x, (c, k, poison, sect) ∈ [(Instr.data p, kDATA, false, false), (.dataPoison p, kDataPoison, true, false),
          (.sectend p, kSECTEND, false, true)] →
        q.headKind k = some (sl, rp, x) →
        Answers (exec c s) (fun u => (u.port p).rxq = q.rxq.drop 1 ∧ (∀ r, r ≠ p → u.port r = s.port r) ∧
          (∀ ci, s.fabric.circuits.find (4096 * trunkOf p + x.index) = some ci → ci.in_ = true → q.rxOwner sl = some ci.domain →
            (ci.discard = false → ∃ b, Tbl.get [] u.egress ep = Tbl.get [] s.egress ep ++ [b] ∧ b.ty = 7 ∧ b.dst = ci.wharf ∧
              b.stream = ci.wst ∧ b.payload = x.body ∧ b.poison = poison ∧ b.sect = sect ∧ b.credit = some (p, ci.domain) ∧
              (u.port p).freed = q.freed) ∧
            (ci.discard = true → u.egress = s.egress ∧ Tbl.get 0 (u.port p).freed ci.domain = Tbl.get 0 q.freed ci.domain + 1)) ∧
          ((s.fabric.circuits.find (4096 * trunkOf p + x.index) = none ∨
              ∃ ci, s.fabric.circuits.find (4096 * trunkOf p + x.index) = some ci ∧ (ci.in_ = false ∨ q.rxOwner sl ≠ some ci.domain)) →
            u.egress = s.egress ∧ (∀ id, q.rxOwner sl = some id → Tbl.get 0 (u.port p).freed id = Tbl.get 0 q.freed id + 1) ∧
              (u.port p).shows psOwnerDrop ∧ (u.port p).dropCount = sat16 q.dropCount 1))) ∧
      (∀ sl x, q.headLink lCREDIT = some (sl, x) →
        let e (i : Nat) := fieldLE x.body.toNat (4 * i) 4
        Answers (exec (.credit p) s) (fun u => PortOnly s u p ∧ (u.port p).rxq = q.rxq.drop 1 ∧
          ∀ id, Tbl.get 0 (u.port p).creditUsed id =
            Tbl.get 0 q.creditUsed id - (((List.range 16).filter (fun i => bits (e i) 0 16 == id)).map (fun i => bits (e i) 16 10)).sum)) ∧
      (∀ sl rp x r, q.rxq = (sl, rp, x) :: r → q.unknown x = true →
        Answers (exec (.unknownUnit p) s) (fun u => PortOnly s u p ∧ (u.port p).rxq = r ∧ (u.port p).crcCount = sat16 q.crcCount 1)) ∧
      (48 ≤ p →
        (∀ c k poison sl rp x t, (c, k, poison) ∈ [(Instr.brp p, kBRP, false), (.brpPoison p, kBrpPoison, true)] →
          q.headKind k = some (sl, rp, x) → s.fabric.tags.find (4096 * (p - 48) + x.index) = some t →
          q.rxOwner sl = some t.req.tenant → t.req.ty = 1 → t.dead = false → t.skip ≤ t.got →
          Answers (exec c s) (fun u => (u.port p).rxq = q.rxq.drop 1 ∧
            (∃ b, Tbl.get [] u.egress ep = Tbl.get [] s.egress ep ++ [b] ∧ b.ty = 5 ∧ b.dst = t.req.src ∧ b.line = t.req.line + t.got ∧
              b.payload = x.body ∧ b.poison = poison ∧ b.status = 0) ∧
            u.fabric.tags.find (4096 * (p - 48) + x.index) = if t.got = t.req.count then none else some { t with got := t.got + 1 })) ∧
        (∀ sl rp x t, q.headKind kBMSG = some (sl, rp, x) →
          let m := fieldLE x.body.toNat 0 16
          let tag := bits m 12 12
          (∀ i, i < 3 → bits (fieldLE x.body.toNat (16 * (i + 1)) 16) 0 4 = 0) → bits m 0 4 = 4 →
          s.fabric.tags.find (4096 * (p - 48) + tag) = some t → q.rxOwner sl = some t.req.tenant → bits m 4 8 = t.req.tenant → t.req.ty ≠ 1 → t.dead = false →
          Answers (exec (.bmsg p) s) (fun u => (u.port p).rxq = q.rxq.drop 1 ∧
            u.fabric.tags.find (4096 * (p - 48) + tag) = none ∧
            ∃ b, Tbl.get [] u.egress ep = Tbl.get [] s.egress ep ++ [b] ∧ b.ty = 6 ∧ b.dst = t.req.src ∧ b.line = t.req.line ∧
              b.status = bits m 30 3)))) ∧
  (
  ∀ (s : State) (p : Nat),
      p < 56 →
      let q := s.port p
      (∀ sl x, q.headLink lPortMove = some (sl, x) →
        let f := (fieldLE x.body.toNat 0 1 + 24) % 48
        trunkOf f = trunkOf p → f ≠ p →
        Answers (exec (.portMove p) s) (fun u => (u.port p).rxq = q.rxq.drop 1 ∧ (u.port f).state = .failed ∧
          (u.port f).replay = [] ∧ (u.port f).filling = [] ∧ (u.port f).queues = [] ∧ u.homePort f = p ∧
          (∀ r, r ≠ p → r ≠ f → u.port r = s.port r))) ∧
      (48 ≤ p → q.state ≠ .up → q.state ≠ .down →
        Answers (exec (.basinPortFail (p - 48)) s) (fun u => (u.port p).state = .failed ∧
          (u.fabric.tags = s.fabric.tags.filter (fun e => e.1 / 4096 ≠ p - 48)) ∧
          (∀ e ∈ s.fabric.tags, e.1 / 4096 = p - 48 →
            ∃ n, ∃ r ∈ (u.port n).breqs, r = { e.2.req with taken := max e.2.got e.2.skip }))))

/-- Clauses of R321, R331 to R333, R438: a child's marker joins the gather of the lock it names, and a release goes down the tree to
every child before it takes effect here; a relay only passes it on.
The conventions of log entries 56, 60, 69 and 172 are the model's, not the spec's. -/
def Obligations.MarkersOfTheTree : Prop :=
  ∀ (s : State) (p : Nat),
    p < 56 →
    let q := s.port p
    (∀ rp a b c, q.headMarker false = some (rp, a, b) → s.ctxOfDomain (fieldLE a.toNat 0 2) = some c →
      let cx := s.ctx c
      let m := decGather (trunkOf p) a b
      Answers (exec (.gatherMarker p) s) (fun u => (u.port p).rxq = q.rxq.drop 2 ∧ (∀ d, d ≠ c → u.ctx d = s.ctx d) ∧
        (m.index = cx.gathering → (s.childTrunks c).contains (trunkOf p) = true → (∀ x ∈ cx.childMarkers, x.trunk ≠ trunkOf p) →
          ∃ m', (u.ctx c).childMarkers = cx.childMarkers ++ [m'] ∧ (u.ctx c).firstArrival.isSome = true ∧
            m' = { m with cause := m'.cause, at_ := s.now } ∧
            m'.cause = (if rp = true ∧ causeRank m.cause < causeRank 1 then 1 else m.cause)) ∧
        ((m.index ≠ cx.gathering ∨ (s.childTrunks c).contains (trunkOf p) = false ∨ ∃ x ∈ cx.childMarkers, x.trunk = trunkOf p) →
          u.ctx c = cx))) ∧
    (∀ rp a b c, q.headMarker true = some (rp, a, b) → s.ctxOfDomain (fieldLE a.toNat 0 2) = some c →
      s.parentTrunk c = some (trunkOf p) →
      let cx := s.ctx c
      let r := decRelease a b
      let id := s.domainOf c
      let k (t : Nat) := 65536 * t + id
      Answers (exec (.releaseMarker p) s) (fun u => (u.port p).rxq = q.rxq.drop 2 ∧
        (∀ t ∈ s.childTrunks c, Tbl.get [] u.fabric.markers (k t) =
          Tbl.get [] s.fabric.markers (k t) ++ [encRelease id s.fabric.devid r]) ∧
        (1024 ≤ c → (u.ctx c).index = r.index ∧ (u.ctx c).started = true ∧ (u.ctx c).childMarkers = []) ∧
        (c < 1024 → cx.heldRelease = none → (cx.started = true → cx.index < r.index) → (cx.started = true ∨ r.mismatch = false) →
          r.abort = false → r.halt = false → (u.ctx c).index = r.index ∧ (u.ctx c).fireTime = r.fire ∧ (u.ctx c).started = true ∧
            (u.ctx c).childMarkers = [] ∧ (u.ctx c).gatherSent = false)))

/-- Clauses of R318, R334, R341, R342: formation. The root that holds every child's FORM computes the depth, the longest edge, R_rel
and O, and sends FORMED; a relay or member passes its subtree's FORM up; a failure stops the domain.
Clauses of R344, R349 to R351, R434, R438: digests of replicas, the loss of a device, and the two messages of a replay.
The conventions of log entries 70, 150, 153, 173 and 174 are the model's, not the spec's. -/
def Obligations.FormationAndLoss : Prop :=
  (
  ∀ (s : State) (p : Nat),
      p < 56 →
      let q := s.port p
      let t := trunkOf p
      (∀ sl x g, q.headLink lFORM = some (sl, x) →
        let id := fieldLE x.body.toNat 0 2
        s.fabric.grants.find id = some g → g.children.getLsbD t = true →
        Answers (exec (.form p) s) (fun u => (u.port p).rxq = q.rxq.drop 1 ∧
          (s.ctxOfDomain id = none → ∃ m, Tbl.get [] u.fabric.forms id = (Tbl.get [] s.fabric.forms id).filter (fun f => f.trunk ≠ t) ++ [m] ∧
            m.trunk = t ∧ m.members = fieldLE x.body.toNat 2 2 ∧ m.lowest = fieldLE x.body.toNat 4 1 ∧
            m.required = fieldLE x.body.toNat 5 1 ∧ m.depth = fieldLE x.body.toNat 6 2 ∧ m.he = fieldLE x.body.toNat 8 4))) ∧
      (∀ c g, c < 1024 → s.grantOf c = some g → g.domainId = (s.ctx c).domainId → g.root = true →
        ((s.ctx c).formation.map (fun f => f.sent)) = some false → s.lk.state ≠ .failed →
        (∀ e ∈ g.edges, (s.trunkPort e).isSome = true) →
        (∀ e, e < 6 → g.children.getLsbD e = true → ∃ f ∈ Tbl.get [] s.fabric.forms g.domainId, f.trunk = e) →
        (s.ctx c).staged = none → (s.ctx c).elastic = true → s.fabric.drifting = false →
        let f := s.formOf c g
        let o := cdiv (168000 + f.depth * (2 * f.he + 8000)) 1000
        let u := s.formStep c
        (f.required ≤ f.lowest → o ≤ (s.ctx c).oAssumed →
          (u.ctx c).formedHere = true ∧ (u.ctx c).overhead = o ∧ (u.ctx c).rRel = 88000 + f.depth * f.he ∧ (u.ctx c).version = f.lowest ∧
          ∀ e, e < 6 → g.children.getLsbD e = true →
            ∃ m, Tbl.get [] u.fabric.links e = Tbl.get [] s.fabric.links e ++ [m] ∧ m.kind = kLINK ∧ m.index = lFORMED) ∧
        (f.lowest < f.required → (u.ctx c).state = .stopped ∧ (u.ctx c).formation = none)) ∧
      (∀ sl x c g, q.headLink lFORMED = some (sl, x) → s.ctxOfDomain (fieldLE x.body.toNat 0 2) = some c → c < 1024 →
        s.grantOf c = some g →
        Answers (exec (.formed p) s) (fun u => (u.port p).rxq = q.rxq.drop 1 ∧
          (fieldLE x.body.toNat 2 2 ≠ 0 → (s.ctx c).started = false → (u.ctx c).state = .stopped ∧ (u.ctx c).formation = none) ∧
          (fieldLE x.body.toNat 2 2 = 0 → (u.ctx c).overhead = fieldLE x.body.toNat 4 2 ∧ (u.ctx c).rRel = fieldLE x.body.toNat 6 4 ∧
            (u.ctx c).version = fieldLE x.body.toNat 10 1))) ∧
      (∀ c f g, c < 1024 → (s.ctx c).formation = some f → (s.ctx c).state = .forming → (s.ctx c).started = false →
        f.started + 1000000000 ≤ s.now → s.grantOf c = some g →
        Answers (exec (.formationTimeout c) s) (fun u => (u.ctx c).state = .stopped ∧ (u.ctx c).formation = none ∧
          (∀ d, d ≠ c → u.ctx d = s.ctx d)))) ∧
  (
  ∀ (s : State) (p : Nat),
      p < 56 →
      let q := s.port p
      let t := trunkOf p
      (∀ sl x c, q.headLink lDIGEST = some (sl, x) → (q.rxOwner sl).bind s.ctxOfDomain = some c → c < 1024 → s.lk.state ≠ .failed →
        (s.ctx c).upd.run.isSome = true →
        Answers (exec (.digest p) s) (fun u => (u.ctx c).digestMsgs = (s.ctx c).digestMsgs ++ decDigests x.body ∧
          (∀ d, d ≠ c → u.ctx d = s.ctx d))) ∧
      (∀ relay, t < 6 → s.trunkLost t = true → s.fabric.lostTrunks.contains t = false →
        (∃ id g, s.fabric.grants.find id = some g ∧ g.edges.contains t = true) →
        Answers (exec (.memberLossDetect t relay) s) (fun u => u.fabric.lostTrunks = t :: s.fabric.lostTrunks)) ∧
      (∀ relay sl x c g, q.headLink lMemberLost = some (sl, x) →
        let id := fieldLE x.body.toNat 0 2
        s.ctxOfDomain id = some c → s.fabric.grants.find id = some g →
        Answers (exec (.memberLost p relay) s) (fun u => (u.port p).rxq = q.rxq.drop 1 ∧
          ((relay = false ∨ (s.ctx c).version < 0x21) → g.root = true → c < 1024 → (s.ctx c).sweepBegun = false → (u.ctx c).state = .aborted) ∧
          ((relay = false ∨ (s.ctx c).version < 0x21) → g.root = true → c < 1024 → (s.ctx c).sweepBegun = true → (s.ctx c).state ≠ .aborted →
            (u.ctx c).aborting = true) ∧
          ((relay = false ∨ (s.ctx c).version < 0x21) → g.root = true → 1024 ≤ c → u.ctx c = Ctx.reset) ∧
          (relay = true → 0x21 ≤ (s.ctx c).version → s.fabric.lostTrunks.contains g.parent = true → g.backup < 6 →
            (u.ctx c).switching = true ∧ ∃ h, u.fabric.grants.find id = some h ∧ h = { g with parent := g.backup, backup := 0xFF }))) ∧
      (∀ sl x c, q.headLink lReplayHold = some (sl, x) → s.ctxOfDomain (fieldLE x.body.toNat 0 2) = some c →
        Answers (exec (.replayHold p) s) (fun u => (u.port p).rxq = q.rxq.drop 1 ∧
          (∀ r, s.parentTrunk c = some r → Tbl.get [] u.fabric.links r = Tbl.get [] s.fabric.links r ++ [x] ∧ u.ctx c = s.ctx c) ∧
          (s.parentTrunk c = none → (s.ctx c).state.live = true →
            (u.ctx c).holdReleases = true ∧ (u.ctx c).recovery.isSome = true))) ∧
      (∀ sl x, q.headLink lReplayMark = some (sl, x) →
        let id := fieldLE x.body.toNat 0 2
        Answers (exec (.replayMark p) s) (fun u => (u.port p).rxq = q.rxq.drop 1 ∧
          ∀ k ci, s.fabric.circuits.find k = some ci →
            u.fabric.circuits.find k = some (if ci.domain = id ∧ ci.in_ = true ∧ s.homePort ci.port = p then { ci with discard := false } else ci))))

/-- Clauses of R408, R409, R428, R446: queue pairs of a Loop port: connection, refusal, closing, and what the link and the transport do.
The conventions of log entries 73, 79 and 158 are the model's, not the spec's. -/
def Obligations.LoopQueuePairs : Prop :=
  ∀ (s : State) (l q : Nat),
    l < 8 →
    let p := s.loop l
    (∀ sid priv k i n, p.up = true → bits sid 32 32 = 0x4C57 → bits sid 16 16 < 256 → (s.tenant (bits sid 16 16)).st = .active →
      s.inputStream (bits sid 16 16) l (bits sid 0 16) = some k → lpAdmit (s.streamEntry k) = priv % 2 ^ 16 →
      lowestFree (s.tenant (bits sid 16 16)).loopQp (s.qpIndices (bits sid 16 16)) = some i →
      lowestFree 512 (p.qps.map Prod.fst) = some n →
      Answers (exec (.cmReq l sid priv) s) (fun u => LoopOnly s u l ∧ s.qp l n = none ∧
        u.qp l n = some { tenant := bits sid 16 16, stream := k, index := i } ∧ i ∉ s.qpIndices (bits sid 16 16) ∧
        (u.loop l).answers = p.answers ++ [.reply n] ∧ ∀ m, m ≠ n → u.qp l m = s.qp l m)) ∧
    (∀ sid priv, p.up = true → (bits sid 32 32 ≠ 0x4C57 ∨ 256 ≤ bits sid 16 16 ∨ (s.tenant (bits sid 16 16)).st ≠ .active ∨
        s.inputStream (bits sid 16 16) l (bits sid 0 16) = none) →
      Answers (exec (.cmReq l sid priv) s) (fun u => (u.loop l).qps = p.qps ∧ (u.loop l).answers = p.answers ++ [.reject] ∧
        (u.loop l).cmReject = sat16 p.cmReject 1 ∧ (u.loop l).stat.getLsbD lsCmReject = true)) ∧
    Answers (exec (.cmDreq l q) s) (fun u => u.qp l q = none ∧ (∀ m, m ≠ q → u.qp l m = s.qp l m) ∧
      (∀ k, k ≠ l → u.loop k = s.loop k)) ∧
    (∀ x, s.qp l q = some x →
      Answers (exec (.qpTransportError l q) s) (fun u => u.qp l q = none ∧ (∀ m, m ≠ q → u.qp l m = s.qp l m)) ∧
      Answers (exec (.invalidRequest l q) s) (fun u => LoopOnly s u l ∧ (u.loop l).qps = p.qps ∧
        (u.loop l).answers = p.answers ++ [.invalidRequest q]) ∧
      Answers (exec (.cnp l q) s) (fun u => LoopOnly s u l ∧
        u.qp l q = some { x with rate := x.rateNow s.now / 2, rateAt := s.now }) ∧
      (∀ m r, x.sends = m :: r →
        Answers (exec (.rnrNak l q) s) (fun u => LoopOnly s u l ∧
          u.qp l q = some { x with sends := if 7 ≤ m.retries then r else { m with retries := m.retries + 1 } :: r }))) ∧
    (∀ quanta, p.pfc = true →
      Answers (exec (.pfcPause l quanta) s) (fun u => LoopOnly s u l ∧ (u.loop l).paused = decide (quanta ≠ 0))) ∧
    (p.failed = false → p.up = false → s.loopOnNow l = true →
      Answers (exec (.loopLinkUp l) s) (fun u => (u.loop l).up = true ∧ (u.loop l).qps = p.qps ∧ ∀ k, k ≠ l → u.loop k = s.loop k)) ∧
    (p.failed = false →
      Answers (exec (.loopPortFail l) s) (fun u => (u.loop l).up = false ∧ (u.loop l).failed = true ∧
        (∀ m, u.qp l m = none) ∧ (u.loop l).stat.getLsbD lsDown = true ∧ ∀ k, k ≠ l → u.loop k = s.loop k))

/-- Clauses of R408, R411 to R414: a record arrives packet by packet: judged from its header, answered with an RNR NAK where its slot is not
free, landed line by line, and closed by its descriptor.
Clauses of R412, R416: replies: their flits are gathered behind their header, the whole is sent on the queue pair of the query, and the
acknowledgement of the SEND frees the slot.
The conventions of log entries 68, 72, 77, 78, 80, 81, 82 and 155 are the model's, not the spec's. -/
def Obligations.LoopRecords : Prop :=
  (
  ∀ (s : State) (l q len data : Nat) (ecn : Bool) (x : QPair),
      l < 8 → s.qp l q = some x →
      let p := s.loop l
      let e := s.streamEntry x.stream
      let h := data % 2 ^ 512
      let cnp : List LoopAnswer := if ecn then [.cnp q] else []
      (x.rcv = none →
        Answers (exec (.recordFirstPacket l q false ecn len data) s) (fun u => LoopOnly s u l ∧ (u.loop l).qps = p.qps ∧ (u.loop l).icrc = sat16 p.icrc 1 ∧
          (u.loop l).stat.getLsbD lsIcrc = true)) ∧
      (∀ r c, x.rcv = some r → r.ended = false → c ∈ [Instr.sendMiddle l q false ecn len data, .recordLastPacket l q false ecn len data] →
        Answers (exec c s) (fun u => LoopOnly s u l ∧ (u.loop l).qps = p.qps ∧ (u.loop l).icrc = sat16 p.icrc 1 ∧
          (u.loop l).stat.getLsbD lsIcrc = true)) ∧
      (x.rcv = none → 64 ≤ len →
        Answers (exec (.recordFirstPacket l q true ecn len data) s) (fun u =>
          (s.recordSlot x.stream h (headerCause e h len) = some none →
            u.qp l q = some x ∧ (u.loop l).answers = p.answers ++ cnp ++ [.rnr q] ∧ (u.loop l).stat.getLsbD lsRnr = true ∧
            (u.loopStream x.stream).rnrs = sat32 (s.loopStream x.stream).rnrs ∧ u.hold = s.hold ∧ u.egress = s.egress) ∧
          (∀ i, s.recordSlot x.stream h (headerCause e h len) = some (some i) →
            i ∈ (u.loopStream x.stream).claimed ∧
            ∃ y r, u.qp l q = some y ∧ y.rcv = some r ∧ r.hdr = h ∧ r.got = len ∧ r.slot = some i ∧
              r.cause = (headerCause e h len).getD 0) ∧
          (∀ c, s.recordSlot x.stream h (headerCause e h len) = none → headerCause e h len = some c →
            u.egress = s.egress ∧ (u.loop l).inputReject = sat16 p.inputReject 1 ∧
            ∃ y r, u.qp l q = some y ∧ y.rcv = some r ∧ r.slot = none ∧ r.cause = c ∧ r.discard = true ∧
              y.sends.length = x.sends.length + 1))) ∧
      (∀ r, x.rcv = some r → r.ended = false →
        Answers (exec (.sendMiddle l q true ecn len data) s) (fun u => (u.loop l).answers = p.answers ++ cnp ∧
          ∃ y r', u.qp l q = some y ∧ y.rcv = some r' ∧ r'.got = r.got + len ∧ r'.hdr = r.hdr ∧ r'.slot = r.slot ∧ r'.cause = r.cause ∧
            y.sends = x.sends)) ∧
      (∀ r, x.rcv = some r → r.ended = false →
        Answers (exec (.recordLastPacket l q true ecn len data) s) (fun u =>
          ∃ y, u.qp l q = some y ∧ (r.slot = none → y.rcv = none) ∧
            (∀ i, r.slot = some i → ∃ r', y.rcv = some r' ∧ r'.ended = true ∧ r'.got = r.got + len ∧ r'.slot = some i ∧
              r'.cause = (if r.cause = 0 ∧ r.got + len ≠ 64 + hdrNtok r.hdr * 2 ^ lpTshift e then stDenied else r.cause)))) ∧
      (∀ r i, x.rcv = some r → r.slot = some i → r.ended = true → r.unacked = [] →
        Answers (exec (.descriptorWrite l q) s) (fun u => u.qp l q = some { x with rcv := none } ∧
          i ∉ (u.loopStream x.stream).claimed ∧
          (Memory.wf s.hold = true → (lpRole e ≠ 1 ∨ r.cause = 0) →
            u.holdLine (slotLine e i) = BitVec.ofNat 512 (descriptor x r s.now)) ∧
          (r.cause = 0 → ∀ a, (a < 64 * slotLine e i ∨ 64 * slotLine e i + 64 ≤ a) → u.hold.read a = s.hold.read a) ∧
          (lpRole e = 1 → r.cause = 0 → (u.loopStream x.stream).queue = (s.loopStream x.stream).queue ++ [i])))) ∧
  (
  ∀ (s : State),
      (∀ src ep b rest, (ep = 614 ∨ ep = 622) → s.arriving src ep = some (b, rest) → b.ty = 4 → s.discards b.tenant = false →
        let k := 64 * src + b.stream
        Answers (exec (.replyFlit src ep) s) (fun u => u.transit = rest ∧
          ((s.loopStream k).reply = none → 0 < fieldLE b.payload.toNat 4 4 →
            (u.loopStream k).reply = some (fieldLE b.payload.toNat 0 2, fieldLE b.payload.toNat 4 4, [])) ∧
          (∀ slot n got, (s.loopStream k).reply = some (slot, n, got) → got.length + 64 < n →
            (u.loopStream k).reply = some (slot, n, got ++ bytesLE 64 b.payload.toNat)) ∧
          (∀ slot n got, (s.loopStream k).reply = some (slot, n, got) → got.length < n → n ≤ got.length + 64 →
            (u.loopStream k).reply = none))) ∧
      (∀ ten k j slot l q x bytes, let l' := loopPortOf (wstPep (s.streamEntry k)) (wstPix (s.streamEntry k))
        s.queryOf ten k = some j → (s.loopStream j).full.find slot = some (l, q) → s.slotState (s.streamEntry j) slot = 1 →
        s.qp l q = some x → x.stream = j →
        ((s.sendReply ten k slot bytes).qp l q = some { x with sends := x.sends ++ [{ bytes := bytes, slot := some (j, slot) }] } ∧
         (s.sendReply ten k slot bytes).loopStream k = (if k = j then { s.loopStream j with full := (s.loopStream j).full.del slot } else s.loopStream k) ∧
         ((s.sendReply ten k slot bytes).loop l').replyDiscard = (s.loop l').replyDiscard)) ∧
      (∀ l q x m r, l < 8 → s.qp l q = some x → x.sends = m :: r →
        Answers (exec (.replyAck l q) s) (fun u => u.qp l q = some { x with sends := r } ∧
          (m.slot = none → LoopOnly s u l) ∧
          (∀ j i, m.slot = some (j, i) → Memory.wf s.hold = true → u.slotState (s.streamEntry j) i = 0))))

/-- Clauses of R26, R430, R431, R433, R434: a fault on a link moves its side to a detour path and holds the domains beside it; a
fault inside a granule takes the granule out of use, and a spare takes its place where one is free and the limits allow.
Clauses of R434 to R438: the replay of a domain: once the boundary is complete the domain is rewound, its tiles begin their
programs again with their memory as it stands, and the replay release takes the index and the microbatch number of the boundary.
The conventions of log entries 58, 69, 70, 151 and 165 are the model's, not the spec's. -/
def Obligations.FaultsAndReplay : Prop :=
  (
  ∀ (s : State) (t side : Nat) (lost : Bool),
      t < 9216 →
      let g := granOf t
      let v := s.virtGran g
      (∀ n h, 4 ≤ side → side < 9 → (4 < side → (s.tile t).faulted = false) → s.gran g = .owned n → s.chooseSpare g = some h →
        (v :: s.detoured).eraseDups.length ≤ 8 →
        4 ≤ ((List.range 32).filter (fun i => (Tbl.find (s.detours.filter (fun p => p.2.granule ≠ v)) i).isNone)).length →
        Answers (exec (.linkFault t side lost) s) (fun u => u.gran g = .unusable ∧ u.gran h = .owned n ∧ u.subst.find v = some h ∧
          (∀ d, d ≠ g → d ≠ h → u.gran d = s.gran d) ∧ (u.wharf h).streams = (s.wharf g).streams)) ∧
      (∀ n, 4 ≤ side → side < 9 → (4 < side → (s.tile t).faulted = false) → s.gran g = .owned n → s.chooseSpare g = none →
        Answers (exec (.linkFault t side lost) s) (fun u => u.gran g = .unusable ∧ (∀ d, d ≠ g → u.gran d = s.gran d) ∧
          ∀ c ∈ s.ctxsIn g, (u.ctx c).state = .aborted ∨ (u.ctx c).aborting = true)) ∧
      (∀ path, side < 4 → (besideGran physRows v side).isSome = true →
        let charged := chargedSide physRows v side
        s.sideMoved v side = false → s.freePaths.head? = some path →
        (s.virtGran charged.1 :: s.detoured).eraseDups.length ≤ 8 →
        Answers (exec (.linkFault t side lost) s) (fun u =>
          (∃ d, u.detours.find path = some d ∧ d.granule = charged.1 ∧ d.side = charged.2 ∧ d.draining = true ∧ d.lost = lost) ∧
          u.granules = s.granules ∧
          ∀ c ∈ s.sideCtxs charged.1 charged.2, (s.ctx c).state.live = true → (u.ctx c).holdReleases = true ∧ (u.ctx c).recovery.isSome = true)) ∧
      (∀ path d, path < 32 → s.detours.find path = some d → d.draining = true → s.sideEmpty d.granule d.side = true →
        s.lk.pair1.since = none →
        Answers (exec (.detourSwitch path) s) (fun u => u.detours.find path = some { d with draining := false } ∧
          ∀ c ∈ s.sideCtxs d.granule d.side, ∀ r, (s.ctx c).recovery = some r → r.lost = false →
            (u.ctx c).recovery = none ∧ (u.ctx c).holdReleases = false ∧ (u.ctx c).recoveries = (s.ctx c).recoveries + 1))) ∧
  (
  ∀ (s s' : State) (c : Nat) (r : Recovery) (b : Release),
      c < 1024 → (s.ctx c).recovery = some r → r.lost = true → s.isRoot c = true → (s.ctx c).state.live = true → s.lk.pair1.since = none →
      s.replayBoundary c = some (s', b) →
      Answers (exec (.replayRelease c) s) (fun u =>
        (u.ctx c).index = b.index ∧ (u.ctx c).fireTime = s.now ∧ (u.ctx c).mbn = (s'.ctx c).boundaryMbn ∧ (u.ctx c).state = .running ∧
        (u.ctx c).recovery = none ∧ (u.ctx c).holdReleases = false ∧ (u.ctx c).recoveries = (s.ctx c).recoveries + 1 ∧
        (u.ctx c).arrivals = [] ∧ (u.ctx c).childMarkers = [] ∧
        (∃ q, (u.ctx c).release = some q ∧ q.index = b.index ∧ q.replay = true ∧ q.fire = s.now) ∧
        (∀ t im, (s.tile t).home = some c → s.imageOf c (s.tile t) = some im → r.granule ≠ some (granOf t) →
          (u.tile t).mem = (s.tile t).mem ∧ (u.tile t).core.pc = BitVec.ofNat 12 im.entry ∧ (u.tile t).core.act = .off ∧
          (u.tile t).ibuf = fillBuf im.fill ∧ (u.tile t).holdRelease = true)))

/-- Clauses of R235, R236, R442, R447, R480: the failure of a Hold stack and its rebuilding, which a second failure of the quadrant
ends, and the restarts and failure of the Lockkeeper.
The conventions of log entries 43, 76 and 163 are the model's, not the spec's. -/
def Obligations.StacksAndLockkeeper : Prop :=
  ∀ (s : State),
    (∀ k, k < 32 → (s.stack k).failed = false →
      Answers (exec (.stackFailure k) s) (fun u => (u.stack k).failed = true ∧ (u.stack (takingUnit k)).takeover = true ∧
        (∀ i, i < 8 → (u.stack (8 * (k / 8) + i)).degraded = true) ∧ (∀ j, j / 8 ≠ k / 8 → u.stack j = s.stack j) ∧
        (u.quadrant (k / 8)).failed = (s.quadrant (k / 8)).failed ++ [k % 8] ∧ u.hold = s.hold ∧ u.holdMeta = s.holdMeta)) ∧
    (∀ q, q < 4 → (s.quadrant q).failed.length = 1 → (s.quadrant q).rebuilt = false → (s.stack (8 * q)).rebuilding = true →
      Answers (exec (.backgroundRebuildDone q) s) (fun u => (u.quadrant q).rebuilt = true ∧
        (∀ i, i < 8 → (u.stack (8 * q + i)).rebuilding = false ∧ (u.stack (8 * q + i)).progress = 100) ∧ u.hold = s.hold)) ∧
    (∀ q, q < 4 → 2 ≤ (s.quadrant q).failed.length → Answers (exec (.backgroundRebuildDone q) s) (fun u => u = s)) ∧
    ((s.lk.state = .ready ∨ s.lk.state = .restarting) →
      Answers (exec .sramCopyError s) (fun u => u.lk.state = .failed)) ∧
    (∀ pair c mismatch, pair < 2 → (c, mismatch) ∈ [(Instr.lockstepMismatch pair, true), (.firmwareWatchdog pair, false)] →
      s.boot.phase ≠ .starting → (s.lk.state = .ready ∨ s.lk.state = .restarting) →
      let mine := if pair = 0 then s.lk.pair0 else s.lk.pair1
      let other := if pair = 0 then s.lk.pair1 else s.lk.pair0
      mine.since = none → (mismatch = true → other.since = none) →
      Answers (exec c s) (fun u =>
        (2 ≤ (mine.recent.filter (fun x => decide (s.now < x + 1000000000))).length → u.lk.state = .failed) ∧
        ((mine.recent.filter (fun x => decide (s.now < x + 1000000000))).length < 2 →
          (if pair = 0 then u.lk.pair0 else u.lk.pair1).since = some s.now ∧
          (if pair = 0 then u.lk.pair1 else u.lk.pair0) = other ∧
          u.lk.state = (if pair = 0 then .restarting else s.lk.state)))) ∧
    (∀ pair t, pair < 2 → (if pair = 0 then s.lk.pair0 else s.lk.pair1).since = some t →
      Answers (exec (.warmRestartEnd pair) s) (fun u => (if pair = 0 then u.lk.pair0 else u.lk.pair1).since = none ∧
        u.lk.state = (if pair = 0 then .ready else s.lk.state) ∧ (pair = 0 → ∀ f, (u.fn f).caught = false)))

/-- Clauses of R449, R470, R476, R480, R484, R486, R487, R498, R500, R511 to R513, R521, R522: the supplies and the start. Nothing but flash, fuses
and the backup domain survives a fall of PWR_GOOD; a start that finds a bank runs, or halts without one.
The conventions of log entries 5, 92, 93, 99 and 164 are the model's, not the spec's. -/
def Obligations.StartAndSupplies : Prop :=
  ∀ (s : State),
    (∀ profsel svc badCopies badAreas unusable sealBad cellMv slotId, s.boot.pg = false → s.boot.aux = true →
      Answers (exec (.pwrGoodRise profsel svc badCopies badAreas unusable sealBad cellMv slotId) s) (fun u =>
        u.boot.pg = true ∧
        u.boot.pins = { s.boot.pins with pwrGood := true, resetN := true, seat := true, slotId := BitVec.ofNat 4 slotId, svcEnN := !svc } ∧
        u.boot.profsel = profsel % 4 ∧ u.boot.riseAt = s.now ∧ u.hold = [] ∧ u.ctxs = [] ∧ u.tenants = [] ∧
        u.hostMem = s.hostMem ∧ u.now = s.now ∧ u.pending = s.pending ∧ u.nv.fuses = s.nv.fuses ∧
        (svc = true → u.boot.phase = .service ∧ u.nv = s.nv) ∧
        (svc = false → (∀ b, b < 2 → (s.bank b).valid = false ∨ 3 ≤ (s.bank b).fails) → u.boot.phase = .halted ∧ u.boot.running = none) ∧
        (svc = false → u.boot.phase = .starting → ∃ r, u.boot.running = some r ∧ r.bank < 2 ∧ (s.bank r.bank).valid = true ∧
          (s.bank r.bank).fails < 3) ∧
        (svc = false → sealBad = true → u.boot.phase = .sealFailed ∨ u.boot.phase = .halted))) ∧
    (∀ contacts service, s.boot.pg = true → contacts % 8 ≠ 0 →
      Answers (exec (.pwrGoodFall contacts service) s) (fun u => u.boot.pg = false ∧ u.boot.phase = .off ∧ (∀ t, u.tile t = Tile.reset) ∧
        (∀ c, u.ctx c = {}) ∧ (∀ f, u.fn f = {}) ∧ u.hold = [] ∧ u.granules = [] ∧ u.power = {} ∧ u.lk = {} ∧ u.now = s.now ∧
        u.pending = s.pending ∧ u.boot.aux = s.boot.aux ∧ u.boot.pins.pwrGood = (s.boot.pins.pwrGood && !bit contacts 0) ∧
        u.boot.pins.resetN = (s.boot.pins.resetN && !bit contacts 1) ∧ u.boot.pins.seat = (s.boot.pins.seat && !bit contacts 2) ∧
        (s.boot.phase ≠ .service → u.nv = s.nv))) ∧
    (∀ r, s.boot.running = some r → r.bank < 2 → s.boot.phase = .starting → s.power.flowOk = true →
      (s.entropy.seeded = true ∨ s.entropy.st = .failed) →
      Answers (exec .startReady s) (fun u => u.boot.phase = .ready ∧ u.lk.state = .ready ∧ u.boot.attnUntil = s.now + 100000000 ∧
        (u.bank r.bank).fails = 0 ∧ (u.bank r.bank).pending = false ∧ u.nv.activeB = decide (r.bank = 1) ∧ u.boot.early = [] ∧
        (∀ i, 14 ≤ i → i < 20 → u.power.pdOn.getLsbD i = true) ∧ s.nv.fuses ≤ u.nv.fuses)) ∧
    (s.boot.phase = .starting → s.boot.watchFrom + s.boot.waited + 150000000000 ≤ s.now →
      Answers (exec .startWatchdog s) (fun u => u.boot.pg = true ∧ u.boot.watchFrom = s.now ∧ u.boot.riseAt = s.boot.riseAt ∧
        u.boot.waited = 0 ∧ u.hold = [] ∧ u.ctxs = [])) ∧
    (s.boot.pg = true →
      Answers (exec .mainOvercurrent s) (fun u => u.power.flowOk = false ∧ u.power.shutOff = true ∧ u.power.pdOn = 1 ∧ u.hold = [] ∧
        u.ports = [] ∧ u.loops = [] ∧ ∀ c, c < 1024 → (s.ctx c).state.live = true → (u.ctx c).state = .aborted)) ∧
    (∀ present vbat, Answers (exec (.auxiliarySupply present vbat) s) (fun u => u.boot.aux = present ∧ u.boot.vbat = vbat ∧
      (present = false → vbat = false → u.nv = { s.nv with rtc := {} }) ∧ ((present = true ∨ vbat = true) → u.nv = s.nv) ∧
      (s.boot.aux = true → present = false → u.boot.pg = false ∧ u.boot.phase = .off ∧ u.hold = [] ∧ ∀ t, u.tile t = Tile.reset)))

/-- Clauses of R451, R452, R458, R466 to R469, R475: the coolant, the compute groups that it lets run, and the cap that it leaves.
The conventions of log entry 90 are the model's, not the spec's. -/
def Obligations.CoolantAndDomains : Prop :=
  ∀ (s : State) (inlet outlet flowA flowB : Int) (drop : Nat),
    let c := s.coolantReading inlet outlet flowA flowB drop
    ((s.boot.phase = .starting ∨ s.boot.phase = .ready) → s.power.flowOk = false → s.power.shutOff = false → c.adequate = true →
      Answers (exec (.flowVerified inlet outlet flowA flowB drop) s) (fun u => u.power.flowOk = true ∧ u.power.flowLostAt = none ∧
        u.power.coolant = c ∧ (∀ g, g < 12 → s.groupWanted g = true → s.power.tripped.find g = none →
          u.groupOnNow g = true ∧ (s.groupOnNow g = false → ∀ d ∈ groupDies g, u.die d = { state := .running })))) ∧
    (s.power.flowOk = true → (c.flow < 4000 ∨ 40 * 16 < c.inlet) →
      Answers (exec (.flowLost inlet outlet flowA flowB drop) s) (fun u => u.power.flowOk = false ∧ u.power.flowLostAt = some s.now ∧
        u.power.status.getLsbD pwFlowLost = true ∧ (∀ g, g < 12 → u.groupOnNow g = false) ∧
        (∀ g t, g < 12 → s.groupOnNow g = true → groupOfDie (dieOf t) = g → t < 9216 → u.tile t = Tile.reset))) ∧
    (∀ t, s.power.flowLostAt = some t → s.power.flowOk = false → s.power.shutOff = false → t + 5000000000 ≤ s.now →
      Answers (exec .flowLostTimeout s) (fun u => u.power.shutOff = true ∧ u.power.pdOn = 1 ∧ u.hold = [] ∧ u.ports = [] ∧
        ∀ c, c < 1024 → (s.ctx c).state.live = true → (u.ctx c).state = .aborted)) ∧
    (s.boot.phase = .starting → s.power.flowOk = false → s.boot.notVerifiedAt + 10000000000 ≤ s.now →
      Answers (exec .coolantNotVerified s) (fun u => u.boot.notVerifiedAt = s.now ∧ u.power = s.power)) ∧
    (s.power.pdOn.getLsbD 0 = true → s.boot.phase ≠ .off →
      Answers (exec (.coolantDerate inlet outlet flowA flowB drop) s) (fun u =>
        u.power.effCap = effectiveCap s.power.cap c.inlet c.flow ∧ u.power.pcomp = u.power.effCap - 2800 ∧
        u.power.cap = s.power.cap ∧ u.power.derated = decide (u.power.effCap < s.power.cap) ∧ u.power.coolant = c ∧
        (c.flow < 6500 → u.power.status.getLsbD pwFlowLow = true) ∧ (32 * 16 < c.inlet → u.power.status.getLsbD pwInletHot = true) ∧
        u.power.pdOn = s.power.pdOn)) ∧
    (∀ g t, g < 12 → s.power.idleSince.find g = some t → s.groupOnNow g = true → s.groupWanted g = false → t + 10000000 ≤ s.now →
      Answers (exec (.computeGroupOffTimer g) s) (fun u => u.groupOnNow g = false ∧ (∀ d ∈ groupDies g, (u.die d).state = .off) ∧
        ∀ t, t < 9216 → groupOfDie (dieOf t) = g → u.tile t = Tile.reset))

/-- Clauses of R454, R455, R458 to R465: the governor holds fixed dies at STEP 34 and free ones at or below the ceiling; dies throttle, groups
trip and stacks slow down as their sensors say.
The conventions of log entries 12, 90, 91 and 153 are the model's, not the spec's. -/
def Obligations.GovernorAndTemperature : Prop :=
  ∀ (s : State),
    (∀ draws total slack, s.lk.state ≠ .failed → s.boot.phase = .ready → s.lk.pair1.since = none →
      Answers (exec (.governorInterval draws total slack) s) (fun u => u.power.total = BitVec.ofNat 16 total ∧
        (∀ d, d < 48 → (u.die d).draw = draws.getD d 0 ∧ (u.die d).state = (s.die d).state ∧
          (s.dieFixed d = true → (u.die d).target = 34 ∧ ((s.die d).throttled = false → (u.die d).step = 34)) ∧
          (∀ n c, n ∈ s.tenants.map Prod.fst → c ∈ s.elasticOf n → s.dieFree d c = true → (u.die d).target ≤ s.power.ceiling)) ∧
        u.power.overCap = decide (s.power.effCap < total))) ∧
    (∀ d readings, d < 48 → readings.length = 12 → (s.die d).state ≠ .off →
      let hot := hottest (((dieGrans d).zip readings).map (fun p => p.2 + s.calValue p.1))
      let g := groupOfDie d
      let x := s.die d
      Answers (exec (.thermalSample d readings) s) (fun u =>
        (110 * 16 ≤ hot → u.power.tripped.find g = some s.now ∧ u.groupOnNow g = false ∧ u.power.status.getLsbD pwTrip = true) ∧
        (100 * 16 ≤ hot → hot < 110 * 16 → (u.die d).throttled = true ∧ (u.die d).target = x.target ∧
          (u.die d).step = min (x.step - 1) x.target ∧ u.power.status.getLsbD pwThrottle = true) ∧
        (hot < 97 * 16 → x.throttled = true → ∀ t, x.belowSince = some t → t + 1000000 ≤ s.now →
          (u.die d).step = min (x.step + 1) x.target ∧ (u.die d).throttled = decide (x.step + 1 < x.target)) ∧
        (hot < 110 * 16 → (u.die d).temp = hot ∧ u.power.pdOn = s.power.pdOn))) ∧
    (∀ g t, g < 12 → s.power.tripped.find g = some t → t + 10000000000 ≤ s.now →
      Answers (exec (.tripHoldEnd g) s) (fun u => u.power.tripped.find g = none ∧
        (s.groupWanted g = true → s.power.flowOk = true → s.power.shutOff = false → u.groupOnNow g = true))) ∧
    (∀ k reading, k < 32 →
      let hot := reading + s.calValue (0x0240 + k)
      let x := s.stack k
      Answers (exec (.stackHot k reading) s) (fun u => (u.stack k).temp = hot ∧ (∀ j, j ≠ k → u.stack j = s.stack j) ∧
        (100 * 16 ≤ hot → (u.stack k).halved = true ∧ u.power.status.getLsbD pwStackHot = true) ∧
        (105 * 16 ≤ hot → (u.stack k).refreshOnly = true) ∧ (hot < 100 * 16 → (u.stack k).refreshOnly = false) ∧
        (hot < 95 * 16 → ∀ t, x.coolSince = some t → t + 10000000 ≤ s.now → x.halved = true → (u.stack k).halved = false) ∧
        (95 * 16 ≤ hot → hot < 100 * 16 → (u.stack k).halved = x.halved)))

/-- Clauses of R54, R423, R454, R456, R457, R472, R503, R506, R507, R519: gating, stopped clocks and wakes; samples; the time base and the clock.
The conventions of log entries 7, 101, 102, 115 and 163 are the model's, not the spec's. -/
def Obligations.GatingSamplesAndTime : Prop :=
  ∀ (s : State),
    (∀ t, t < 9216 →
      ((s.tile t).core.waits = true → s.lendNs t < (s.tile t).core.waitedNs →
        Answers (exec (.engineClockGate t 3) s) (fun u => (u.tile t).core = { (s.tile t).core with gated := true } ∧
          ∀ r, r ≠ t → u.tile r = s.tile r)) ∧
      (∀ e, e < 3 → s.engineWaits t e = true → s.lendNs t < ((s.tile t).engine e).waitedNs →
        Answers (exec (.engineClockGate t e) s) (fun u => (u.tile t).engine e = { (s.tile t).engine e with gated := true } ∧
          (u.tile t).core = (s.tile t).core ∧ ∀ r, r ≠ t → u.tile r = s.tile r))) ∧
    (∀ d, d < 48 → s.clocked d = true → s.dieTimed d = false →
      (∀ g ∈ dieGrans d, s.wharfQuiet g = true ∧ ∀ t ∈ granTiles g, s.tileQuiet t = true) →
      Answers (exec (.dieClockStop d) s) (fun u => u.die d = { s.die d with state := .stopped } ∧ u.tiles = s.tiles)) ∧
    (∀ d merged, d < 48 → (s.die d).state = .stopped →
      Answers (exec (.wakeRequest d merged) s) (fun u => u.die d = { s.die d with state := .running } ∧
        (merged = true → u.power.xingOvr.getLsbD d = true) ∧ (merged = false → u.power = s.power))) ∧
    (∀ groups inlet outlet flowA flowB drop, groups.length = 12 →
      let c := s.coolantReading inlet outlet flowA flowB drop
      Answers (exec (.telemetrySample groups inlet outlet flowA flowB drop) s) (fun u => u.power.coolant = c ∧
        u.power.coolSamples = (c :: s.power.coolSamples).take 64 ∧
        (∀ g p v a, g < 12 → groups[g]? = some (p, v, a) → Tbl.get [] u.power.samples g =
          (s.groupSample g p v a :: Tbl.get [] s.power.samples g).take 64))) ∧
    Answers (exec .timeBaseTick s) (fun u => u.now = s.now + 1 ∧ u.pending = s.pending ∧ u.hold = s.hold ∧ u.ctxs = s.ctxs ∧
      u.fns = s.fns ∧
      (s.boot.pg = true → ∀ t c, (s.tile t).home = some c → (s.ctx c).state.live = true →
        let i := (s.tile t).idleClass (s.ctx c) s.now
        (u.tile t).lock.acct = countIdle (s.tile t).lock.acct i ∧ (u.tile t).mem = (s.tile t).mem) ∧
      ((s.boot.aux = true ∨ s.boot.vbat = true) → u.nv.rtc = s.nv.rtc.tick (s.calValue 0x0600)) ∧
      (s.boot.aux = false → s.boot.vbat = false → u.nv = s.nv)) ∧
    (s.boot.pg = true → s.nv.rtc.valid = true → rtcEnd ≤ s.nv.rtc.count →
      Answers (exec .rtcRangeEnd s) (fun u => u.nv = { s.nv with rtc := { s.nv.rtc with valid := false } })) ∧
    (∀ mv, s.boot.pg = true → s.boot.cellAt + 3600000000000 ≤ s.now →
      Answers (exec (.cellMeasure mv) s) (fun u => u.nv.rtc.cellMv = mv ∧ u.boot.cellAt = s.now)) ∧
    (∀ ty sensor mv, s.boot.aux = true →
      Answers (exec (.mctpRequest ty sensor mv) s) (fun u => ∃ a, u.boot.mctp = s.boot.mctp ++ [a] ∧
        (ty = 0 → a = .control) ∧ (1 < ty → a = .unsupported) ∧ (ty = 1 → 11 ≤ sensor → a = .unsupported) ∧
        (ty = 1 → (sensor = 3 ∨ sensor = 4) → a = .sensor sensor mv) ∧
        (ty = 1 → sensor < 11 → sensor ≠ 3 → sensor ≠ 4 → a = .sensor sensor (s.boot.sensors.getD sensor 0))))

/-- Clauses of R13, R378, R380 to R385, R388, R391, R401: the mailbox page: the doorbell, writes to the page, the completion of
commands, and the vector table in BAR2.
The conventions of log entries 83, 84, 88 and 171 are the model's, not the spec's. -/
def Obligations.MailboxPage : Prop :=
  ∀ (s : State) (f : Nat),
    f < 514 →
    let fn := s.fn f
    let same (u : State) : Prop := ∀ g, g ≠ f → u.fn g = s.fn g
    (∀ val, s.fnExists f = true → bit val 0 = true →
      Answers (exec (.doorbell f val) s) (fun u => same u ∧
        ((fn.busy = true ∨ fn.fell = some s.now) → u.fn f = { fn with doorbellDropped := true }) ∧
        (fn.busy = false → fn.fell ≠ some s.now → (u.fn f).busy = true ∧ (u.fn f).rspValid = false ∧
          (u.fn f).accepted = some (fn.cmd, fn.seq) ∧ (u.fn f).acceptedAt = s.now ∧
          (∀ off size, 0x200 ≤ off → off + size ≤ 0x300 → u.bar0Read f off size = s.bar0Read f off size) ∧
          bit (u.bar0Read f 8 8) 0 = false ∧ bit (u.bar0Read f 8 8) 1 = true ∧
          (u.fn f).resp.map Resp.status = (match s.lk.state with
            | .ready => none
            | .booting => some stNotReady
            | .restarting => some stBusy
            | .failed => some stTenantFault)))) ∧
    (∀ off size val, s.fnExists f = true → barAccess off size = true →
      (fn.busy = true → (off = 0x18 ∨ (0x100 ≤ off ∧ off < 0x200)) →
        exec (.mbxWrite f off size val) s = .next (s.setFn f { fn with writeDropped := true })) ∧
      (fn.busy = false → 0x100 ≤ off → off < 0x200 →
        Answers (exec (.mbxWrite f off size val) s) (fun u => same u ∧
          fieldLE (u.fn f).cmd.toNat (off - 0x100) size = val % 2 ^ (8 * size) ∧
          (∀ j, j < 256 → (j < off - 0x100 ∨ off - 0x100 + size ≤ j) → fieldLE (u.fn f).cmd.toNat j 1 = fieldLE fn.cmd.toNat j 1) ∧
          (u.fn f).seq = fn.seq)) ∧
      (fn.busy = false → off = 0x18 →
        exec (.mbxWrite f off size val) s = .next (s.setFn f { fn with seq := BitVec.ofNat 16 val })) ∧
      (off = 0 →
        Answers (exec (.registerWrite f off size val) s) (fun u => same u ∧ (u.fn f).irqRsp = bit val 0 ∧ (u.fn f).irqEvt = bit val 1 ∧
          (u.fn f).eqHead = bits val 16 16 ∧ (u.fn f).cmd = fn.cmd ∧ (u.fn f).resp = fn.resp ∧
          (fn.lost ≠ 0 → ∀ q, fn.eq = some q → eqFull q (bits val 16 16) = false → (u.fn f).lost = 0))) ∧
      (off = 8 →
        exec (.registerWrite f off size val) s = .next (s.setFn f { fn with
          doorbellDropped := fn.doorbellDropped && !bit val 5, writeDropped := fn.writeDropped && !bit val 6
          eqOverflow := fn.eqOverflow && !bit val 7 }))) ∧
    (∀ off size val, s.fnExists f = true → 0x10000 ≤ off →
      exec (.registerWrite f off size val) s = .next (s.setFn f (fn.writeMsix (off - 0x10000) size val))) ∧
    (∀ c seq r, fn.accepted = some (c, seq) → fn.caught = false →
      (fn.resp = some r ∨ (fn.resp = none ∧ (s.underWay f).isSome = true ∧ cmdRow (fieldLE c.toNat 0 2) = none ∧
        r = (s.refusal f c.toNat).getD (Resp.fail stNoCap 0))) →
      Answers (exec (.commandComplete f) s) (fun u => same u ∧ (u.fn f).rsp = BitVec.ofNat 2048 (rspBytes seq.toNat r) ∧
        (u.fn f).rspValid = true ∧ (u.fn f).busy = false ∧ (u.fn f).accepted = none ∧ (u.fn f).resp = none ∧
        (u.fn f).fell = some s.now ∧ (u.fn f).msix = (if fn.irqRsp && !fn.vec0.masked then fn.msix ++ [0] else fn.msix) ∧
        (u.fn f).pba = (if fn.irqRsp && fn.vec0.masked then fn.pba ||| 1#2 else fn.pba))) ∧
    (∀ slot r, slot < 16 → (slotAt s f slot).ready = some r → s.lk.state = .ready → (slotAt s f slot).running = true →
      Answers (exec (.deferredCommandComplete f slot) s) (fun u => same u ∧ (slotAt u f slot).running = false ∧
        (slotAt u f slot).done = some r ∧ (slotAt u f slot).read = false ∧ (∀ k, k ≠ slot → slotAt u f k = slotAt s f k)))

/-- Clauses of R365, R386, R473, R517, R518: what resets a function or makes it disappear, configuration requests, and the watchdog of register
accesses.
The conventions of log entries 104 and 141 are the model's, not the spec's. -/
def Obligations.FunctionResets : Prop :=
  ∀ (s : State),
    (∀ f, f < 514 → s.fnExists f = true →
      Answers (exec (.functionLevelReset f) s) (fun u => (u.fn f).version = none ∧ (u.fn f).busy = false ∧ (u.fn f).slots = [] ∧
        (u.fn f).eq = none ∧ (u.fn f).epoch = (s.fn f).epoch + 1 ∧
        (∀ n, fnTenant f = some n → (s.tenant n).st = .active → (u.tenant n).st = .resetting) ∧
        (∀ n, fnTenant f ≠ some n → (u.tenant n).st = (s.tenant n).st))) ∧
    (∀ port contact, port < 2 → s.boot.phase ≠ .off →
      let n := if port = 0 then s.vfs.1 else s.vfs.2
      Answers (exec (.perstAssert port contact) s) (fun u => (∀ i, i ≤ n → i < 257 → (u.fn (fnOf port i)).version = none ∧
          (u.fn (fnOf port i)).busy = false ∧ (u.fn (fnOf port i)).slots = []) ∧
        u.vfs = (if port = 0 then (0, s.vfs.2) else (s.vfs.1, 0))) ∧
      Answers (exec (.vfEnableClear port) s) (fun u => (∀ i, 1 ≤ i → i ≤ n → i < 257 → (u.fn (fnOf port i)).version = none ∧
          (u.fn (fnOf port i)).busy = false ∧ (u.fn (fnOf port i)).slots = []) ∧
        u.vfs = (if port = 0 then (0, s.vfs.2) else (s.vfs.1, 0)) ∧
        (∀ i, i < n → n ≤ 256 → (if port = 0 then s.vfs.2 else s.vfs.1) ≤ i → (s.tenant i).st = .active → (u.tenant i).st = .releasing))) ∧
    (∀ port early vfs, port < 2 → s.boot.phase ≠ .off →
      let have_ := if port = 0 then s.vfs.1 else s.vfs.2
      Answers (exec (.pcieConfigRequest port early vfs) s) (fun u => ∃ retry, u.boot.configAnswers = s.boot.configAnswers ++ [(port, retry)] ∧
        (s.boot.phase = .ready → retry = false) ∧
        (s.boot.phase = .starting → retry = (early && decide (s.now < s.boot.riseAt + 900000000))) ∧
        (∀ n, vfs = some n → retry = false → (s.boot.phase = .starting ∨ s.boot.phase = .ready) → n ≠ 0 → n ≤ 256 → have_ = 0 →
          u.vfs = (if port = 0 then (n, s.vfs.2) else (s.vfs.1, n))))) ∧
    (∀ f c code t unit i off run again, Passes s f code c → (s.fn f).acceptedAt + 50000 ≤ s.now →
      s.accessOf f c = some (t, unit, i, off, run) →
      Answers (exec (.mgmtAccessWatchdog f again) s) (fun u =>
        (again = true → s.power.pdOn.getLsbD t.pd = true → Says u f (Resp.status_ stTenantFault) ∧
          u.power.status.getLsbD pwMgmtHang = true) ∧
        (again = false → Says u f (run s).2)))

/-- Clauses of R387, R390, R395, R396, R403: a command that fails a common check is answered with the status of that check and has no effect at
all, whichever command it is.
The conventions of log entries 83, 84, 105, 107, 116, 129, 130, 134, 135, 137, 138, 140, 142, 144, 147 and 148 are the model's, not the spec's. -/
def Obligations.RefusedCommands : Prop :=
  ∀ (s : State) (f c : Nat) (r : Resp) (a b d : Nat) (x y : Bool) (scrub : List Nat) (flips : List (Nat × Nat))
    (boxes : List (Nat × List Nat)) (others : List (Nat × Nat × Nat)) (ups : List (Nat × Bool)) (sectors : Option Nat),
    f < 514 → s.underWay f = some c → s.refusal f c = some r →
    (∀ i ∈ [(Instr.hello f, 0x0001), (.goodbye f, 0x0002), (.eqConfig f, 0x0003), (.readResult f, 0x0004), (.getRandom f, 0x0005),
        (.tenantSetup f, 0x0101), (.tenantReset f, 0x0102), (.tenantRelease f scrub, 0x0103), (.tenantQuery f, 0x0104),
        (.tenantPolicy f, 0x0105), (.load f a b x y, 0x0201), (.seedSet f, 0x0202), (.seedDraw f, 0x0203), (.updRead f, 0x0301),
        (.exportShards f x, 0x0302), (.importShards f x, 0x0303), (.permute f x y boxes others, 0x0304), (.domainRead f, 0x0401),
        (.domainWrite f, 0x0402), (.domainStart f, 0x0403), (.domainForm f, 0x0404), (.domainStage f x, 0x0405),
        (.domainWithdraw f, 0x0406), (.domainResume f, 0x0407), (.domainAbort f, 0x0408), (.domainGrant f, 0x0410),
        (.fabricConfig f, 0x0411), (.setProfile f, 0x0501), (.powerCap f, 0x0502), (.slotRepack f, 0x0503), (.entropyReset f, 0x0504),
        (.regRead f, 0x0505), (.regWrite f, 0x0506), (.setDevPolicy f, 0x0507), (.fwBegin f, 0x0601), (.fwBlock f sectors, 0x0602),
        (.fwCommit f flips, 0x0603), (.fwStatus f, 0x0604), (.timeSet f, 0x0701), (.timeGet f, 0x0702), (.calRead f, 0x0703),
        (.calWrite f, 0x0704), (.calRestoreFactory f, 0x0705), (.entropySample f d x, 0x0706), (.tileRead f ups x, 0x0801),
        (.tileWrite f sectors, 0x0802), (.syncSet f, 0x0803), (.step f, 0x0805)],
      fieldLE c 0 2 = i.2 → exec i.1 s = .next (s.respond f r)) ∧
    (∀ i ∈ [(Instr.telemetryComputeGroup f, 0), (.telemetryCoolant f, 1), (.telemetryMonitor f, 2), (.telemetryIdleTotals f, 3),
        (.telemetryStream f, 4), (.telemetryExpansion f, 5)],
      fieldLE c 0 2 = 0x0508 → fieldLE c 16 1 = i.2 → exec i.1 s = .next (s.respond f r)) ∧
    (∀ i ∈ [(Instr.beagleSetBreakpoint f, 0), (.beagleClearBreakpoint f, 1), (.beagleStop f, 2), (.beagleResume f, 3),
        (.beagleQuery f, 4), (.beagleScheduleHalt f, 5), (.beagleScheduleTrace f, 6)],
      fieldLE c 0 2 = 0x0804 → fieldLE c 16 1 = i.2 → exec i.1 s = .next (s.respond f r))

/-- Clauses of R392, R395, R400, R401, R491: sessions, event queues and results.
The conventions of log entries 85 and 86 are the model's, not the spec's. -/
def Obligations.SessionCommands : Prop :=
  ∀ (s : State) (f c : Nat),
    let fn := s.fn f
    let lo := fieldLE c 17 1 * 256 + fieldLE c 16 1
    let hi := fieldLE c 19 1 * 256 + fieldLE c 18 1
    (Passes s f 0x0001 c →
      Answers (exec (.hello f) s) (fun u =>
        (fn.version.isSome = true → fn.anyRunning = true → Says u f (Resp.status_ stBusy) ∧ (u.fn f).version = fn.version) ∧
        ((fn.version = none ∨ fn.anyRunning = false) → (lo ≤ hi ∧ lo ≤ min hi mbxMax ∧ mbxMin ≤ hi) →
          (u.fn f).version = some (min hi mbxMax) ∧ (u.fn f).slots = [] ∧ ∃ r, Says u f r ∧ r.status = stOK ∧ r.len = 20 ∧
            fieldLE r.data.toNat 0 1 = min hi mbxMax % 256 ∧ fieldLE r.data.toNat 1 1 = min hi mbxMax / 256) ∧
        ((fn.version = none ∨ fn.anyRunning = false) → ¬ (lo ≤ hi ∧ lo ≤ min hi mbxMax ∧ mbxMin ≤ hi) →
          (u.fn f).version = none ∧ ∃ r, Says u f r ∧ r.status = stVersion))) ∧
    (Passes s f 0x0002 c →
      Answers (exec (.goodbye f) s) (fun u =>
        (fn.anyRunning = true → Says u f (Resp.status_ stBusy) ∧ (u.fn f).version = fn.version) ∧
        (fn.anyRunning = false → Says u f Resp.done ∧ (u.fn f).version = none ∧ (u.fn f).slots = []))) ∧
    (Passes s f 0x0003 c →
      let base := fieldLE c 16 8
      let l := fieldLE c 24 1
      Answers (exec (.eqConfig f) s) (fun u =>
        (base = 0 → (u.fn f).eq = none ∧ Says u f (Resp.ok 4 0)) ∧
        (base ≠ 0 → base % 4096 ≠ 0 → Says u f (Resp.denied 3 16) ∧ (u.fn f).eq = fn.eq) ∧
        (base ≠ 0 → base % 4096 = 0 → (l < 6 ∨ 16 < l) → Says u f (Resp.denied 3 24) ∧ (u.fn f).eq = fn.eq) ∧
        (base ≠ 0 → base % 4096 = 0 → 6 ≤ l → l ≤ 16 → ∃ q, (u.fn f).eq = some q ∧ q.base = base ∧ q.logLen = l ∧ (u.fn f).held = [] ∧
          (fn.held = [] → fn.lost = 0 → q.tail = 0 ∧ q.phase = true ∧ u.hostMem = s.hostMem ∧ Says u f (Resp.ok 4 0))))) ∧
    (Passes s f 0x0004 c →
      let k := fieldLE c 16 1
      let g := fieldLE c 20 4
      Answers (exec (.readResult f) s) (fun u =>
        (16 ≤ k → Says u f (Resp.denied 3 16)) ∧
        (k < 16 → (slotAt s f k).done = none → Says u f (Resp.status_ stNotReady)) ∧
        (∀ r, k < 16 → (slotAt s f k).done = some r → r.gen < g → Says u f (Resp.status_ stNotReady)) ∧
        (∀ r, k < 16 → (slotAt s f k).done = some r → g < r.gen → Says u f (Resp.denied 4 0)) ∧
        (∀ r, k < 16 → (slotAt s f k).done = some r → g = r.gen → (slotAt u f k).read = true ∧ (slotAt u f k).done = some r ∧
          ∃ p, Says u f p ∧ p.status = stOK ∧ p.rflags = (if (slotAt s f k).read then 1 else 0) ∧ p.len = 240 ∧
            fieldLE p.data.toNat 6 2 = r.status % 2 ^ 16 ∧ fieldLE p.data.toNat 16 224 = r.data.toNat)))

/-- Clauses of R290 to R295: the source of entropy, its health tests and restarts, and the requests that the DRBG serves, keeps or fails.
The conventions of log entries 11, 108, 109 and 110 are the model's, not the spec's. -/
def Obligations.EntropyAndRandom : Prop :=
  ∀ (s : State),
    let e := s.entropy
    (∀ raw, s.sourceRuns = true → e.st = .ok → e.windowAt + 16000 ≤ s.now → e.waiting = [] →
      let t := e.testWindow raw
      Answers (exec (.entropyWindow raw) s) (fun u =>
        (t.2.1 = false → t.2.2 = false → u.entropy.st = .ok ∧ u.entropy.passed = e.passed + 1 ∧ u.entropy.restarts = 0 ∧
          u.entropy.seeded = true ∧ u.entropy.windowAt = s.now ∧
          (e.seeded = true → u.entropy.pool = e.pool ++ [BitVec.ofNat 384 (ofBytesBE (sha384 (bytesLE 128 raw)))] ∧
            u.entropy.drbg = e.drbg)) ∧
        ((t.2.1 = true ∨ t.2.2 = true) → u.entropy.pool = [] ∧ u.entropy.failed = BitVec.ofNat 16 (satAdd 16 e.failed.toNat 1) ∧
          u.entropy.rctFail = (e.rctFail || t.2.1) ∧ u.entropy.aptFail = (e.aptFail || t.2.2) ∧
          (e.restarts < 3 → u.entropy.st = .restarting ∧ u.entropy.restarts = e.restarts + 1) ∧
          (3 ≤ e.restarts → u.entropy.st = .failed)))) ∧
    (∀ raw, s.sourceRuns = true → (e.st = .startup ∨ e.st = .restarting) →
      e.since + (if e.st = .startup then 64000 else 1064000) ≤ s.now →
      Answers (exec (.entropyRestartSettled raw) s) (fun u =>
        (u.entropy.st = .ok ∧ u.entropy.windowAt = s.now ∧ u.entropy.resets = []) ∨
        (u.entropy.startFail = true ∧ u.entropy.pool = [] ∧
          ((e.restarts < 3 ∧ u.entropy.st = .restarting ∧ u.entropy.restarts = e.restarts + 1) ∨ (3 ≤ e.restarts ∧ u.entropy.st = .failed))))) ∧
    (∀ x rest, s.sourceRuns = true → s.reseedDue = true → e.st = .ok → e.pool = x :: rest → e.waiting = [] →
      Answers (exec .drbgReseed s) (fun u => u.entropy.pool = rest ∧ u.entropy.requests = 0 ∧ u.entropy.reseedAt = s.now ∧
        u.entropy.drbg = e.drbg.reseed (natBytes 48 x.toNat))) ∧
    (∀ f c, Passes s f 0x0504 c → SlotFree s f c →
      Answers (exec (.entropyReset f) s) (fun u => Begins s u f c ∧ Waits u f c ∧ u.entropy.st = .restarting ∧ u.entropy.restarts = 0 ∧
        u.entropy.since = s.now)) ∧
    (∀ f c raw, Passes s f 0x0706 c → SlotFree s f c → s.descFault c = none →
      let n := fieldLE c 16 4
      Answers (exec (.entropySample f raw false) s) (fun u => Begins s u f c ∧
        ((n = 0 ∨ n % 1024 ≠ 0) → Settled u f c stDenied ∧ u.hostMem = s.hostMem) ∧
        (∀ m, n ≠ 0 → n % 1024 = 0 → s.descWrite c (bytesLE (n / 8) raw) = .ok m → Settled u f c stOK ∧ u.hostMem = m.hostMem) ∧
        (∀ d, n ≠ 0 → n % 1024 = 0 → s.descWrite c (bytesLE (n / 8) raw) = .error d → Settled u f c stNoResource ∧ u.hostMem = s.hostMem)) ∧
      Answers (exec (.entropySample f raw true) s) (fun u => Begins s u f c ∧ Settled u f c stIntegrity)) ∧
    (∀ f c, Passes s f 0x0005 c → SlotFree s f c →
      let n := fieldLE c 16 2
      let pr := bit (fieldLE c 18 1) 0
      Answers (exec (.getRandom f) s) (fun u => Begins s u f c ∧
        ((n = 0 ∨ 224 < n ∨ 2 ≤ fieldLE c 18 1) → Settled u f c stDenied ∧ u.entropy = e) ∧
        (1 ≤ n → n ≤ 224 → fieldLE c 18 1 < 2 →
          (s.drawNow pr = .served → Settled u f c stOK ∧ u.entropy.drbg = (s.drbgBytes n pr).1.entropy.drbg) ∧
          (s.drawNow pr = .waits → Waits u f c ∧ ∃ w, u.entropy.waiting = e.waiting ++ [(w, pr)] ∧ u.entropy.drbg = e.drbg) ∧
          (s.drawNow pr = .fails → Settled u f c stEntropy ∧ u.entropy = e))))

/-- Clauses of R277, R278, R249, R274, R394, R403: the seed, the update registers and the records of shards, exported as of the last
committed step.
The conventions of log entries 111, 129, 130 and 131 are the model's, not the spec's. -/
def Obligations.ContextData : Prop :=
  ∀ (s : State) (f c x : Nat),
    ctxOf f c = .ok x →
    let cx := s.ctx x
    (Passes s f 0x0202 c →
      Answers (exec (.seedSet f) s) (fun u =>
        (cx.state ≠ .stopped → Says u f (Resp.status_ stNeedsQuiesce) ∧ u.ctx x = cx) ∧
        (cx.state = .stopped → Says u f Resp.done ∧ u.ctx x = { cx with
          k0 := BitVec.ofNat 64 (fieldLE c 24 8), k1 := BitVec.ofNat 64 (fieldLE c 32 8), seedMarked := true }) ∧
        (∀ d, d ≠ x → u.ctx d = s.ctx d))) ∧
    (Passes s f 0x0203 c → SlotFree s f c → cx.state = .stopped →
      Answers (exec (.seedDraw f) s) (fun u => Begins s u f c ∧ (∀ d, d ≠ x → u.ctx d = s.ctx d) ∧
        (s.drawNow false = .served → Settled u f c stOK ∧ (u.ctx x).seedMarked = true ∧
          (u.ctx x).k0.toNat = leOf ((s.drbgBytes 16 false).2.take 8) % 2 ^ 64 ∧ (u.ctx x).k1.toNat = leOf ((s.drbgBytes 16 false).2.drop 8) % 2 ^ 64) ∧
        (s.drawNow false = .waits → Waits u f c ∧ u.ctx x = cx) ∧
        (s.drawNow false = .fails → Settled u f c stEntropy ∧ u.ctx x = cx))) ∧
    (Passes s f 0x0203 c → cx.state ≠ .stopped → exec (.seedDraw f) s = .next (s.respond f (Resp.status_ stNeedsQuiesce))) ∧
    (Passes s f 0x0301 c →
      Answers (exec (.updRead f) s) (fun u => ∃ r, Says u f r ∧ r.status = stOK ∧ r.len = 72 ∧
        (∀ i, i < 9 → fieldLE r.data.toNat (8 * i) 8 = cx.upd.regs.getD i 0 % 2 ^ 64) ∧ u.ctxs = s.ctxs)) ∧
    (∀ bus, Passes s f 0x0302 c → SlotFree s f c → s.descFault c = none → (cx.state = .stopped ∨ cx.state = .halted) →
      Answers (exec (.exportShards f bus) s) (fun u => Begins s u f c ∧ u.hold = s.hold ∧ u.ushd = s.ushd ∧ u.ctxs = s.ctxs ∧
        (bus = true → Settled u f c stIntegrity ∧ u.hostMem = s.hostMem) ∧
        (bus = false → Settled u f c stOK ∨ ((Settled u f c stNoResource ∨ Settled u f c stIntegrity) ∧ u.hostMem = s.hostMem)))) ∧
    (∀ bus, (Passes s f 0x0302 c → s.descFault c = none → cx.state ≠ .stopped → cx.state ≠ .halted →
      exec (.exportShards f bus) s = .next (s.respond f (Resp.status_ stNeedsQuiesce))) ∧
     (Passes s f 0x0303 c → s.descFault c = none → cx.state ≠ .stopped → cx.state ≠ .halted →
      exec (.importShards f bus) s = .next (s.respond f (Resp.status_ stNeedsQuiesce)))) ∧
    (∀ bus, Passes s f 0x0303 c → SlotFree s f c → s.descFault c = none → (cx.state = .stopped ∨ cx.state = .halted) →
      Answers (exec (.importShards f bus) s) (fun u => Begins s u f c ∧
        (bus = true → Settled u f c stIntegrity ∧ u.hold = s.hold) ∧
        (bus = false → let a := s.importAll x ((s.descBytes c).length + 1) (s.descBytes c)
          Settled u f c (a.2.2.getD stOK) ∧ u.hold = a.1.hold)))

/-- Clauses of R233, R295, R361, R362: a set-up reserves everything or nothing, and a fault of the hardware gives all of it back;
with its keys drawn the tenant is ACTIVE, its granules are its own and its Hold window reads as zero.
The conventions of log entries 107, 167 and 168 are the model's, not the spec's. -/
def Obligations.TenantSetupCommand : Prop :=
  ∀ (s : State) (f c : Nat),
    Passes s f 0x0101 c → SlotFree s f c →
    let n := fieldLE c 16 1
    Answers (exec (.tenantSetup f) s) (fun u => Begins s u f c ∧ (∀ m, m ≠ n → u.tenant m = s.tenant m) ∧
      (∀ st d, s.reserve c = .error (st, d) → Settled u f c st ∧ u.tenants = s.tenants ∧ u.granules = s.granules ∧ u.hold = s.hold) ∧
      (∀ t, s.reserve c = .ok t →
        (s.drawNow true = .served → (∃ q ∈ s.quadrants, 2 ≤ q.2.failed.length) → Settled u f c stTenantFault ∧ (u.tenant n).st = .free ∧
          u.hold = s.hold ∧ (∀ v ∈ t.grans, u.gran (s.physGran v) = .clean)) ∧
        (s.drawNow true = .served → (∀ q ∈ s.quadrants, q.2.failed.length < 2) → Settled u f c stOK ∧ (u.tenant n).st = .active ∧ (u.tenant n).keys.isSome = true ∧
          (u.tenant n).grans = t.grans ∧ (u.tenant n).canal = t.canal ∧ (u.tenant n).baseGib = t.baseGib ∧
          (∀ v ∈ t.grans, u.gran (s.physGran v) = .owned n) ∧
          (∀ g, (∀ v ∈ t.grans, s.physGran v ≠ g) → u.gran g = s.gran g) ∧
          (∀ a, t.baseGib * 2 ^ 30 ≤ a → a < (t.baseGib + t.sizeGib) * 2 ^ 30 → u.hold.read a = 0) ∧
          (∀ a, (a < t.baseGib * 2 ^ 30 ∨ (t.baseGib + t.sizeGib) * 2 ^ 30 ≤ a) → u.hold.read a = s.hold.read a)) ∧
        (s.drawNow true = .waits → Waits u f c ∧ (u.tenant n).st = .settingUp ∧ (∀ v ∈ t.grans, u.gran (s.physGran v) = .owned n) ∧
          u.hold = s.hold) ∧
        (s.drawNow true = .fails → Settled u f c stEntropy ∧ (u.tenant n).st = .free ∧ u.hold = s.hold ∧
          (∀ v ∈ t.grans, u.gran (s.physGran v) = .clean))))

/-- Clauses of R239, R364 to R367: a reset or release ends the tenant's domains and commands, waits until nothing is outstanding,
and leaves its region cleared; a release also frees its granules and gives its resources back.
Clauses of R355, R357, R358, R369, R376, R377: queries and policies of tenants, with the measurement of a changed policy, and
the repacking of canal slots.
The conventions of log entries 89, 106, 107 and 178 are the model's, not the spec's. -/
def Obligations.TenantResetsAndPolicies : Prop :=
  (
  ∀ (s : State),
      (∀ f c, Passes s f 0x0102 c → SlotFree s f c →
        let n := fieldLE c 16 1
        (fnNum f = 0 ∨ n = fnNum f - 1) →
        Answers (exec (.tenantReset f) s) (fun u => Begins s u f c ∧ (∀ m, m ≠ n → (u.tenant m).st = (s.tenant m).st) ∧
          ((s.tenant n).st = .active → (u.tenant n).st = .resetting ∧ ∃ w, (u.tenant n).joined = [w] ∧ w.1 = f) ∧
          ((s.tenant n).st = .resetting → Waits u f c ∧ (u.tenant n).st = .resetting ∧ ∃ w, (u.tenant n).joined = (s.tenant n).joined ++ [w]) ∧
          ((s.tenant n).st ≠ .active → (s.tenant n).st ≠ .resetting → Settled u f c stDenied ∧ u.tenants = s.tenants))) ∧
      (∀ f c scrub, Passes s f 0x0103 c → SlotFree s f c →
        let n := fieldLE c 16 1
        Answers (exec (.tenantRelease f scrub) s) (fun u => Begins s u f c ∧
          ((s.tenant n).st = .active → ((u.tenant n).st = .releasing ∧ u.granules = s.granules) ∨
            ((u.tenant n).st = .free ∧ ∃ st, Settled u f c st)) ∧
          ((s.tenant n).st = .active → (∀ i, i < 4 → s.ctx (4 * n + i) = {}) →
            ((u.tenant n).st = .releasing ∧ Waits u f c) ∨ ((u.tenant n).st = .free ∧ Settled u f c stOK)) ∧
          (((s.tenant n).st = .free ∨ (s.tenant n).st = .releasing) → Settled u f c stOK ∧ u.tenants = s.tenants) ∧
          (((s.tenant n).st = .settingUp ∨ (s.tenant n).st = .resetting) → Waits u f c ∧ (u.tenant n).releaseWanted = true ∧
            (u.tenant n).st = (s.tenant n).st))) ∧
      (∀ n scrub, n < 256 → s.outstanding n = false →
        ((s.tenant n).st = .resetting → (s.tenant n).releaseWanted = false →
          Answers (exec (.tenantResetComplete n scrub) s) (fun u => (u.tenant n).st = .active ∧ (u.tenant n).joined = [] ∧
            (∀ i, i < 4 → u.ctx (4 * n + i) = {}) ∧ (∀ m, m ≠ n → u.tenant m = s.tenant m) ∧
            (∀ t, (s.tenantGrans n).contains (granOf t) = true → (u.tile t).mem = [] ∧ (u.tile t).core = {} ∧ (u.tile t).home = none) ∧
            (∀ g, (s.tenantGrans n).contains g = true → (u.wharf g).streams = []))) ∧
        ((s.tenant n).st = .releasing →
          Answers (exec (.tenantResetComplete n scrub) s) (fun u => (u.tenant n).st = .free ∧ (u.tenant n).keys = none ∧
            (u.tenant n).sizeGib = 0 ∧ (u.tenant n).canal = 0 ∧ (∀ i, i < 4 → u.ctx (4 * n + i) = {}) ∧
            (∀ g, (s.tenantGrans n).contains g = true → u.gran g ≠ .owned n ∧ (scrub.contains g = true → u.gran g = .unusable)) ∧
            (∀ m, m ≠ n → u.tenant m = s.tenant m)))) ∧
      (∀ n scrub, n < 256 → (s.tenant n).st = .releasing → (s.tenant n).abortedAt + 10000000 ≤ s.now →
        Answers (exec (.releaseBasinTimeout n scrub) s) (fun u =>
          (∀ e ∈ u.fabric.tags, e.2.req.tenant = n → e.2.dead = true) ∧
          (((u.tenant n).st = .free ∧ (u.tenant n).keys = none) ∨ u.tenants = s.tenants)))) ∧
  (
  ∀ (s : State) (f c : Nat),
      let n := fieldLE c 16 1
      let v := fieldLE c 24 8
      (Passes s f 0x0104 c →
        Answers (exec (.tenantQuery f) s) (fun u => u.tenants = s.tenants ∧
          ((fnNum f = 0 ∨ n = fnNum f - 1) → Says u f (Resp.ok 48 (s.tenant n).report)) ∧
          (fnNum f ≠ 0 → n ≠ fnNum f - 1 → Says u f (Resp.denied 3 16)))) ∧
      (Passes s f 0x0105 c →
        Answers (exec (.tenantPolicy f) s) (fun u =>
          ((s.tenant n).st ≠ .active → Says u f (Resp.denied 6 0) ∧ u.tenants = s.tenants) ∧
          ((s.tenant n).st = .active → s.tenantRuns n = true → Says u f (Resp.status_ stNeedsQuiesce) ∧ u.tenants = s.tenants) ∧
          ((s.tenant n).st = .active → s.tenantRuns n = false → Says u f Resp.done ∧
            u.tenant n = { s.tenant n with debug := bit v 0, lendOut := bit v 1, lendIn := bit v 2, meas5 := (u.tenant n).meas5 } ∧
            (u.tenant n).meas5 = (u.tenant n).block ++ [(u.tenant n).hwin] ++ s.dieQuotas n ∧
            ∀ m, m ≠ n → u.tenant m = s.tenant m))) ∧
      (Passes s f 0x0507 c →
        Answers (exec (.setDevPolicy f) s) (fun u => u.tenants = s.tenants ∧
          ((∃ p ∈ s.tenants, (p.2.lendOut = true ∨ p.2.lendIn = true) ∧ s.tenantRuns p.1 = true) →
            Says u f (Resp.status_ stNeedsQuiesce) ∧ u.crossLend = s.crossLend) ∧
          ((∀ p ∈ s.tenants, p.2.lendOut = true ∨ p.2.lendIn = true → s.tenantRuns p.1 = false) →
            Says u f Resp.done ∧ u.crossLend = bit v 0))) ∧
      (Passes s f 0x0503 c → SlotFree s f c →
        Answers (exec (.slotRepack f) s) (fun u => Begins s u f c ∧
          ((∃ p ∈ s.ctxs, p.1 < 1024 ∧ p.2.state = .running) → Settled u f c stNeedsQuiesce ∧ u.tenants = s.tenants) ∧
          (∀ t, (∀ p ∈ s.ctxs, p.1 < 1024 → p.2.state ≠ .running) → s.repacked = some t → Settled u f c stOK ∧
            ∀ m l, t.find m = some l → (∀ p ∈ t, p.1 = m → p.2 = l) → (u.tenant m).canalSlots = l) ∧
          ((∀ p ∈ s.ctxs, p.1 < 1024 → p.2.state ≠ .running) → s.repacked = none → Settled u f c stNoResource ∧ u.tenants = s.tenants))))

/-- Clauses of R275, R276, R298, R303, R307, R394: LOAD takes an image whole or leaves the region as it was; PERMUTE commits a new cut or leaves
the old.
The conventions of log entries 116, 118, 119, 120, 121, 122, 125, 126 and 132 are the model's, not the spec's. -/
def Obligations.LoadAndPermute : Prop :=
  ∀ (s : State) (f c : Nat),
    SlotFree s f c → s.descFault c = none →
    (∀ basinGib bound hw bus, Passes s f 0x0201 c →
      let n := fnNum f - 1
      let a := s.modTenant n (fun t => { t with basinGib := basinGib })
      let s' := { a with fabric := { a.fabric with basinBound := bound } }
      Answers (exec (.load f basinGib bound hw bus) s) (fun u => Begins s u f c ∧
        (bus = true → Settled u f c stIntegrity ∧ u.loads = s.loads ∧ u.tiles = s.tiles) ∧
        (∀ e, bus = false → parseImage (s.descBytes c) = .error e → Settled u f c e.status ∧ u.loads = s.loads ∧ u.tiles = s.tiles) ∧
        (∀ i e, bus = false → parseImage (s.descBytes c) = .ok i → s'.loadChecks n i = .error e → e.status ≠ stOK →
          Settled u f c e.status ∧ u.loads = s.loads ∧ u.tiles = s.tiles ∧ u.hold = s.hold) ∧
        (∀ i level, bus = false → hw = false → parseImage (s.descBytes c) = .ok i → s'.loadChecks n i = .ok level →
          Settled u f c stOK ∧ ∃ l, u.loads.find n = some l ∧ l.digest = ofBytesLE (sha384 i.bytes) ∧ l.spill = level ∧
            ∀ d, d < i.doms.length → (u.ctx (4 * n + (((s'.freeCtxs n).take i.doms.length).map (fun k => k % 4)).getD d 0)).loaded = true) ∧
        (∀ i level, bus = false → hw = true → parseImage (s.descBytes c) = .ok i → s'.loadChecks n i = .ok level →
          Settled u f c stTenantFault ∧ u.loads.find n = none))) ∧
    (∀ x bus agree boxes others, Passes s f 0x0304 c → ctxOf f c = .ok x → (s.ctx x).state = .halted →
      let kept (u : State) : Prop := u.ushd = s.ushd ∧ u.hold = s.hold ∧ u.ugrp = s.ugrp ∧ u.ctxs = s.ctxs
      Answers (exec (.permute f bus agree boxes others) s) (fun u => Begins s u f c ∧
        (bus = true → Settled u f c stIntegrity ∧ kept u) ∧
        (bus = false → parsePermutation (s.descBytes c) = none → Settled u f c stDenied ∧ kept u) ∧
        (∀ p, bus = false → parsePermutation (s.descBytes c) = some p →
          ((s.permBad x p).isSome = true → Settled u f c stDenied ∧ kept u) ∧
          (s.permBad x p = none → (s.ctx x).spans = true → agree = false → Settled u f c stMismatch ∧ kept u) ∧
          (s.permBad x p = none → ((s.ctx x).spans = false ∨ agree = true) → s.permRoom x p = false → Settled u f c stNoResource ∧ kept u) ∧
          (s.permBad x p = none → ((s.ctx x).spans = false ∨ agree = true) → s.permRoom x p = true →
            ((∃ q ∈ s.permMine p, s.permContent x p boxes q = none) → Settled u f c stIntegrity ∧ kept u) ∧
            ((∀ q ∈ s.permMine p, (s.permContent x p boxes q).isSome = true) →
              let packed := s.permPack x p boxes
              (s.permAgrees x p packed.2 others = false → Settled u f c stIntegrity ∧ kept u) ∧
              (s.permAgrees x p packed.2 others = true → Settled u f c stOK ∧ u.ushd = (packed.1.permCommit x p packed.2).ushd ∧
                u.hold = (packed.1.permCommit x p packed.2).hold ∧ u.ugrp = (packed.1.permCommit x p packed.2).ugrp ∧
                u.ctx x = (packed.1.permCommit x p packed.2).ctx x ∧ ∀ d, d ≠ x → u.ctx d = s.ctx d))))))

/-- Clauses of R42, R58, R64, R96, R341, R427, R535: reading and writing a domain context, and the commands that start, form, resume, step and
abort its domain.
The conventions of log entries 105, 133, 134, 136 and 150 are the model's, not the spec's. -/
def Obligations.DomainCommands : Prop :=
  ∀ (s : State) (f c x : Nat),
    ctxOf f c = .ok x →
    let cx := s.ctx x
    let off := fieldLE c 18 2
    let v := fieldLE c 24 8
    let others (u : State) : Prop := ∀ d, d ≠ x → u.ctx d = s.ctx d
    (Passes s f 0x0401 c →
      Answers (exec (.domainRead f) s) (fun u => u.ctxs = s.ctxs ∧ ∃ r, Says u f r ∧ r.status = stOK ∧ r.len = 176 ∧
        ∀ i, i < 22 → fieldLE r.data.toNat (8 * i) 8 = (cx.lkd ++ cx.stretch).getD i 0 % 2 ^ 64)) ∧
    (Passes s f 0x0402 c →
      Answers (exec (.domainWrite f) s) (fun u => others u ∧
        (off = 0x48 → Says u f Resp.done ∧ u.ctx x = cx.clearStatus v) ∧
        (off ∉ [0x00, 0x08, 0x18, 0x40, 0x48] → Says u f (Resp.denied 3 18) ∧ u.ctx x = cx) ∧
        (off ∈ [0x08, 0x18, 0x40] → cx.state ≠ .stopped → Says u f (Resp.status_ stNeedsQuiesce) ∧ u.ctx x = cx) ∧
        (off = 0x00 → cx.state = .stopped → (cx.elasticPin = true → bit v 1 = true) →
          Says u f Resp.done ∧ u.ctx x = { cx with enable := bit v 0, elastic := bit v 1, cargoExact := bit v 2 }) ∧
        (off = 0x08 → cx.state = .stopped → (cx.loaded = true → max cx.pProved cx.overhead ≤ bits v 0 30) →
          Says u f Resp.done ∧ u.ctx x = { cx with period := bits v 0 30 }) ∧
        (off = 0x18 → cx.state = .stopped → Says u f Resp.done ∧ u.ctx x = { cx with stretchLimit := bits v 0 26 }) ∧
        (off = 0x40 → cx.state = .stopped → Says u f Resp.done ∧ (∀ n : Fin 4, (u.ctx x).cargoExp[n] = BitVec.ofNat 16 (bits v (16 * n) 16))))) ∧
    (Passes s f 0x0403 c →
      Answers (exec (.domainStart f) s) (fun u => others u ∧
        (cx.mayStart false = true → Says u f Resp.done ∧ (u.ctx x).state = .forming ∧ (u.ctx x).started = false ∧
          (u.ctx x).formedHere = true ∧ (u.ctx x).staged = none) ∧
        (cx.mayStart false = false → Says u f (Resp.denied 6 0) ∧ u.ctx x = cx))) ∧
    (Passes s f 0x0404 c → (cx.mayStart true = false ∨ s.grantOf x = none) → exec (.domainForm f) s = .next (s.respond f (Resp.denied 6 0))) ∧
    (∀ g, Passes s f 0x0404 c → SlotFree s f c → cx.mayStart true = true → s.grantOf x = some g →
      Answers (exec (.domainForm f) s) (fun u => others u ∧ (u.ctx x).identified = true ∧ (u.ctx x).domainId = cx.domainId ∧
        Says u f { Resp.done with rflags := 4, slot := fieldLE c 3 1, gen := (slotAt s f (fieldLE c 3 1)).gen + 1 } ∧
        (cx.staged = none → g.edges.all (fun t => (s.trunkPort t).isSome) = false → Begins s u f c ∧ Waits u f c ∧ (u.ctx x).state = .forming ∧
          (u.ctx x).started = false ∧ ∃ m, (u.ctx x).formation = some m ∧ m.fn = f ∧ m.started = s.now ∧ m.sent = false))) ∧
    (Passes s f 0x0407 c →
      Answers (exec (.domainResume f) s) (fun u => others u ∧
        (cx.resumable = false → Says u f (Resp.denied 6 0) ∧ u.ctx x = cx) ∧
        (cx.resumable = true → cx.holdReleases = true → Says u f (Resp.status_ stBusy) ∧ u.ctx x = cx) ∧
        (∀ r, cx.resumable = true → cx.holdReleases = false → cx.heldRelease = some r →
          Says u f Resp.done ∧
          (s.isRoot x = true → (u.ctx x).state = .running ∧ (u.ctx x).heldRelease = none ∧ (u.ctx x).fireTime = s.now ∧
            (u.ctx x).release = some { r with fire := s.now } ∧ (u.ctx x).huuHold = true) ∧
          (s.isRoot x = false → u.ctx x = cx ∧ u.fabric.resumes = s.fabric.resumes ++ [cx.domainId])))) ∧
    (Passes s f 0x0408 c → SlotFree s f c →
      Answers (exec (.domainAbort f) s) (fun u => others u ∧ Begins s u f c ∧
        (cx.state = .aborted → Settled u f c stAborted) ∧
        (cx.state = .stopped → Settled u f c stDenied ∧ u.ctx x = cx) ∧
        (cx.state ≠ .aborted → cx.state ≠ .stopped → cx.spans = false → cx.sweepBegun = false →
          (u.ctx x).state = .aborted ∧ Settled u f c stAborted) ∧
        (cx.state ≠ .aborted → cx.state ≠ .stopped → cx.spans = false → cx.sweepBegun = true →
          (u.ctx x).aborting = true ∧ (u.ctx x).state = cx.state ∧ Waits u f c))) ∧
    (∀ r, Passes s f 0x0805 c → SlotFree s f c → fieldLE c 20 4 ≠ 0 → cx.state = .halted → cx.heldRelease = some r →
      cx.holdReleases = false →
      Answers (exec (.step f) s) (fun u => others u ∧ Begins s u f c ∧ Waits u f c ∧
        (u.ctx x).haltAt = cx.haltAt ++ [cx.index + fieldLE c 20 4] ∧
        (∃ w, (u.ctx x).stepTarget = some (f, w, cx.index + fieldLE c 20 4)) ∧
        (s.isRoot x = true → (u.ctx x).state = .running ∧ (u.ctx x).heldRelease = none))) ∧
    (Passes s f 0x0805 c → (fieldLE c 20 4 = 0 ∨ cx.resumable = false) →
      Answers (exec (.step f) s) (fun u => u.ctxs = s.ctxs ∧ ∃ r, Says u f r ∧ r.status = stDenied))

/-- Clauses of R64 to R69, R342, R394, R404: a staged set is held until its lock, and is given up when it is withdrawn.
Clauses of R326, R327, R338, R339, R341: grants and the device's place in the fabric.
The conventions of log entries 54, 55, 135, 136 and 137 are the model's, not the spec's. -/
def Obligations.StagedSetsAndFabric : Prop :=
  (
  ∀ (s : State) (f c x : Nat),
      ctxOf f c = .ok x →
      let cx := s.ctx x
      let others (u : State) : Prop := ∀ d, d ≠ x → u.ctx d = s.ctx d
      (∀ t items d, Passes s f 0x0405 c → SlotFree s f c → s.stageFault x c = none → readSet (s.descBytes c) = .ok (t, items, d) →
        Answers (exec (.domainStage f false) s) (fun u => others u ∧ Begins s u f c ∧ Waits u f c ∧
          u.ctx x = { cx with staged := some (cx.stage f (fieldLE c 3 1 + 16 * (s.fn f).epoch) t d items) })) ∧
      (∀ r, Passes s f 0x0405 c → s.stageFault x c = some r → exec (.domainStage f false) s = .next (s.respond f r)) ∧
      (Passes s f 0x0405 c → SlotFree s f c → s.descFault c = none →
        Answers (exec (.domainStage f true) s) (fun u => u.ctxs = s.ctxs ∧ Begins s u f c ∧ Settled u f c stIntegrity)) ∧
      (Passes s f 0x0406 c →
        Answers (exec (.domainWithdraw f) s) (fun u => others u ∧
          (cx.staged = none → Says u f (Resp.denied 6 0) ∧ u.ctx x = cx) ∧
          (∀ g, cx.staged = some g → (g.armed.isSome = true ∨ (g.onStopped = true ∧ cx.state ≠ .stopped)) →
            Says u f (Resp.status_ stBusy) ∧ u.ctx x = cx) ∧
          (∀ g, cx.staged = some g → g.armed = none → (g.onStopped = true → cx.state = .stopped) →
            Says u f Resp.done ∧ u.ctx x = { cx with staged := none } ∧
            ((slotAt s g.fn (g.slot % 16)).running = true → (slotAt s g.fn (g.slot % 16)).ready = none → g.slot / 16 = (s.fn g.fn).epoch →
              ∃ r, (slotAt u g.fn (g.slot % 16)).ready = some r ∧ r.status = stAborted)))) ∧
      (∀ t d items k, cx.state.live = true → cx.spans = false →
        let g := cx.stage f k t d items
        (t ≤ cx.gathering → g.armed = some cx.gathering ∧ g.lateMode = decide (t < cx.gathering)) ∧
        (cx.gathering < t → g.armed = none ∧ g.lateMode = false ∧ g.target = t))) ∧
  (
  ∀ (s : State) (f c : Nat),
      let g := grantOfBytes (fieldLE c 16 64)
      let running := ((s.ctxOfDomain g.domainId).map (fun x => (s.ctx x).state == .running)).getD false
      (Passes s f 0x0410 c →
        Answers (exec (.domainGrant f) s) (fun u => u.ctxs = s.ctxs ∧
          (∀ o, g.badField = some o → Says u f (Resp.denied 3 o) ∧ u.fabric = s.fabric ∧ u.ports = s.ports) ∧
          (g.badField = none → running = true → Says u f (Resp.status_ stNeedsQuiesce) ∧ u.fabric = s.fabric ∧ u.ports = s.ports) ∧
          (g.badField = none → running = false → s.grantFits g = false → Says u f (Resp.status_ stNoResource) ∧ u.fabric = s.fabric ∧
            u.ports = s.ports) ∧
          (g.badField = none → running = false → s.grantFits g = true → Says u f Resp.done ∧ u.fabric.grants.find g.domainId = some g ∧
            (∀ d, d ≠ g.domainId → u.fabric.grants.find d = s.fabric.grants.find d) ∧ u.fabric.circuits = s.fabric.circuits))) ∧
      (Passes s f 0x0411 c →
        Answers (exec (.fabricConfig f) s) (fun u => u.ctxs = s.ctxs ∧ u.fabric.grants = s.fabric.grants ∧
          (12287 < fieldLE c 16 2 → Says u f (Resp.denied 3 16) ∧ u.fabric = s.fabric) ∧
          (fieldLE c 16 2 ≤ 12287 → 1 < fieldLE c 18 1 → Says u f (Resp.denied 3 18) ∧ u.fabric = s.fabric) ∧
          (fieldLE c 16 2 ≤ 12287 → fieldLE c 18 1 ≤ 1 → 2500 < fieldLE c 20 2 → Says u f (Resp.denied 3 20) ∧ u.fabric = s.fabric) ∧
          (fieldLE c 16 2 ≤ 12287 → fieldLE c 18 1 ≤ 1 → fieldLE c 20 2 ≤ 2500 →
            ((∃ p ∈ s.ctxs, p.2.state = .running) → Says u f (Resp.status_ stNeedsQuiesce) ∧ u.fabric = s.fabric) ∧
            ((∀ p ∈ s.ctxs, p.2.state ≠ .running) → Says u f Resp.done ∧ u.fabric.devid = fieldLE c 16 2 ∧
              u.fabric.master = bit (fieldLE c 18 1) 0 ∧ u.fabric.fmax = fieldLE c 20 2)))))

/-- Clauses of R96, R406, R458, R468, R473, R499: profiles, the power cap and the register commands of the provider.
The conventions of log entries 138, 139, 145 and 146 are the model's, not the spec's. -/
def Obligations.ProviderCommands : Prop :=
  ∀ (s : State) (f c : Nat),
    (Passes s f 0x0501 c →
      let i := fieldLE c 16 1
      let p := s.storedProfile i
      let busy := s.tenants.any (fun q => q.2.st == .settingUp || q.2.st == .releasing) || !s.quiescent
      let tight := s.tenants.any (fun q => q.2.st != .free && decide (1792 - p.reserve < q.2.baseGib + q.2.sizeGib)) ||
        decide (p.reserve * 2 ^ 30 < (s.loads.map (fun q => q.2.copyBytes)).sum)
      Answers (exec (.setProfile f) s) (fun u =>
        (4 ≤ i → Says u f (Resp.denied 3 16) ∧ u.boot = s.boot) ∧
        (i < 4 → busy = true → Says u f (Resp.status_ stNeedsQuiesce) ∧ u.boot = s.boot) ∧
        (i < 4 → busy = false → Profile.ok p i = false → Says u f (Resp.denied 3 16) ∧ u.boot = s.boot) ∧
        (i < 4 → busy = false → Profile.ok p i = true → tight = true → Says u f (Resp.status_ stNoResource) ∧ u.boot = s.boot) ∧
        (i < 4 → busy = false → Profile.ok p i = true → tight = false → Says u f Resp.done ∧ u.boot.profile = p ∧
          u.boot.profileIndex = i ∧ u.reserveGib = p.reserve ∧ u.power.ceiling = p.ceiling ∧ u.power.cap = p.cap ∧
          (∀ k, k < 56 → Profile.portOn s.boot.profile k = true → Profile.portOn p k = false → (u.port k).state = .down) ∧
          (∀ k, k < 56 → (Profile.portOn s.boot.profile k = false ∨ Profile.portOn p k = true) → u.port k = s.port k)))) ∧
    (Passes s f 0x0502 c →
      let cap := fieldLE c 16 4
      Answers (exec (.powerCap f) s) (fun u =>
        ((cap < 8000 ∨ 23000 < cap) → Says u f (Resp.denied 3 16) ∧ u.power = s.power) ∧
        (8000 ≤ cap → cap ≤ 23000 → Says u f Resp.done ∧ u.power.cap = cap ∧
          u.power.effCap = effectiveCap cap s.power.coolant.inlet s.power.coolant.flow ∧ u.power.pcomp = u.power.effCap - 2800))) ∧
    (let unit := fieldLE c 16 1
     let i := fieldLE c 18 2
     let off := fieldLE c 20 4
     let n := fieldLE c 24 1
     (Passes s f 0x0505 c →
      Answers (exec (.regRead f) s) (fun u =>
        ((unit = 0 ∨ 9 < unit) → Says u f (Resp.denied 3 16)) ∧
        (1 ≤ unit → unit ≤ 9 → off % 8 ≠ 0 → Says u f (Resp.denied 3 20)) ∧
        (1 ≤ unit → unit ≤ 9 → off % 8 = 0 → (n = 0 ∨ 28 < n) → Says u f (Resp.denied 3 24)) ∧
        (∀ t, 1 ≤ unit → unit ≤ 9 → off % 8 = 0 → 1 ≤ n → n ≤ 28 → unitTarget unit i = some t →
          (s.power.pdOn.getLsbD t.pd = false → Says u f (Resp.fail stNotReady (0x100 + t.pd))) ∧
          (s.power.pdOn.getLsbD t.pd = true → ∃ r, Says u f r ∧ r.status = stOK ∧ r.len = 8 * n ∧
            ∀ k, k < n → fieldLE r.data.toNat (8 * k) 8 = (s.wake t).unitReg unit i (off + 8 * k) % 2 ^ 64)))) ∧
     (Passes s f 0x0506 c →
      Answers (exec (.regWrite f) s) (fun u =>
        ((unit = 0 ∨ 9 < unit) → Says u f (Resp.denied 3 16)) ∧
        (1 ≤ unit → unit ≤ 9 → n ≠ 1 → Says u f (Resp.denied 3 24)) ∧
        (1 ≤ unit → unit ≤ 9 → n = 1 → unitW1c unit off = false → Says u f (Resp.denied 3 20)) ∧
        (∀ t, 1 ≤ unit → unit ≤ 9 → n = 1 → unitW1c unit off = true → unitTarget unit i = some t → s.power.pdOn.getLsbD t.pd = true →
          Says u f Resp.done ∧ (unit = 2 → (u.wharf i).status = (s.wharf i).status &&& ~~~BitVec.ofNat 6 (fieldLE c 32 8)) ∧
          (unit = 8 → off = 0x110 → u.power.status = s.power.status &&& ~~~BitVec.ofNat 8 (fieldLE c 32 8)) ∧
          (unit = 5 → (u.stack i).status = (s.stack i).status &&& ~~~BitVec.ofNat 4 (fieldLE c 32 8))))))

/-- Clauses of R55, R218, R375, R420, R423, R424: TELEMETRY of each kind: who may read, what the answer holds, and what a clearing read clears.
The conventions of log entry 144 are the model's, not the spec's. -/
def Obligations.TelemetryCommands : Prop :=
  ∀ (s : State) (f c : Nat),
    Passes s f 0x0508 c → fieldLE c 21 1 < 2 →
    let kind := fieldLE c 16 1
    let b17 := fieldLE c 17 1
    let gs (x : Nat) := s.gransOf x
    let slot (g : Nat) : MonSlot := Tbl.get {} s.mons (16 * g + b17)
    (kind = 0 → let n := fieldLE c 20 1
      Answers (exec (.telemetryComputeGroup f) s) (fun u => u.power = s.power ∧
        (12 ≤ b17 → Says u f (Resp.denied 3 17)) ∧
        (∀ t, b17 < 12 → fnTenant f = some t → t ∉ s.groupReaders b17 → Says u f (Resp.denied 1 0)) ∧
        (b17 < 12 → (∀ t, fnTenant f = some t → t ∈ s.groupReaders b17) →
          ((n = 0 ∨ 7 < n) → Says u f (Resp.denied 3 20)) ∧
          (1 ≤ n → n ≤ 7 → ∃ r, Says u f r ∧ r.status = stOK ∧ r.len = 32 * (min n (Tbl.get [] s.power.samples b17).length) ∧
            ∀ k x, k < n → (Tbl.get [] s.power.samples b17)[k]? = some x → fieldLE r.data.toNat (32 * k) 8 = x.time % 2 ^ 64 ∧
              fieldLE r.data.toNat (32 * k + 10) 2 = x.power % 2 ^ 16)))) ∧
    (kind = 1 →
      Answers (exec (.telemetryCoolant f) s) (fun u => u.power = s.power ∧
        ((fnTenant f).isSome = true → Says u f (Resp.denied 1 0)) ∧
        (fnTenant f = none → b17 ≠ 0 → Says u f (Resp.denied 3 17)) ∧
        (fnTenant f = none → b17 = 0 → ∃ r, Says u f r ∧ r.status = stOK ∧ r.len = 32 ∧
          fieldLE r.data.toNat 0 8 = (s.power.coolSamples.headD {}).time % 2 ^ 64 ∧
          fieldLE r.data.toNat 12 2 = s16 (s.power.coolSamples.headD {}).flow % 2 ^ 16))) ∧
    (∀ x, kind = 2 → telCtx f c = .ok x → 1 ≤ b17 → b17 ≤ 15 →
      Answers (exec (.telemetryMonitor f) s) (fun u => u.tiles = s.tiles ∧ (∃ r, Says u f r ∧ r.status = stOK ∧ r.len = 151 ∧
          ∀ i, i < 37 → fieldLE r.data.toNat (4 * i) 4 = s.monSum x b17 i) ∧
        (bit (fieldLE c 21 1) 0 = false → u.mons = s.mons) ∧
        (bit (fieldLE c 21 1) 0 = true → (∀ g ∈ gs x, u.mons.find (16 * g + b17) = none) ∧
          ∀ k, (∀ g ∈ gs x, k ≠ 16 * g + b17) → u.mons.find k = s.mons.find k))) ∧
    (kind = 2 → ((∃ r, telCtx f c = .error r) ∨ b17 = 0 ∨ 15 < b17) →
      Answers (exec (.telemetryMonitor f) s) (fun u => u.mons = s.mons ∧ ∃ r, Says u f r ∧ r.status = stDenied)) ∧
    (∀ x, kind = 3 → telCtx f c = .ok x →
      Answers (exec (.telemetryIdleTotals f) s) (fun u => u.ctxs = s.ctxs ∧
        (b17 ≠ 0 → Says u f (Resp.denied 3 17)) ∧
        (b17 = 0 → ∃ r, Says u f r ∧ r.status = stOK ∧ r.len = 56 ∧
          ∀ i : Fin 7, fieldLE r.data.toNat (8 * i) 8 = ((s.ctx x).totals[i]).toNat))) ∧
    (∀ x, kind = 4 → telCtx f c = .ok x →
      let t := s.tenant (x / 4)
      let gx := fieldLE c 22 1
      let gy := fieldLE c 23 1
      Answers (exec (.telemetryStream f) s) (fun u => u.streams = s.streams ∧
        ((t.width ≤ gx ∨ t.height ≤ gy) → Says u f (Resp.denied 3 22)) ∧
        (gx < t.width → gy < t.height → 64 ≤ fieldLE c 24 1 → Says u f (Resp.denied 3 24)) ∧
        (gx < t.width → gy < t.height → fieldLE c 24 1 < 64 →
          let p := s.loopStream (64 * s.physGran (32 * (t.oy + gy) + t.ox + gx) + fieldLE c 24 1)
          ∃ r, Says u f r ∧ r.status = stOK ∧ r.len = 24 ∧ fieldLE r.data.toNat 0 4 = p.accepted.toNat ∧
            fieldLE r.data.toNat 20 4 = p.discarded.toNat))) ∧
    (kind = 5 → let n := (fnTenant f).getD (fieldLE c 22 1)
      Answers (exec (.telemetryExpansion f) s) (fun u => u.tenants = s.tenants ∧
        (b17 ≠ 0 → Says u f (Resp.denied 3 17) ∧ u.wharves = s.wharves) ∧
        (b17 = 0 → (∃ r, Says u f r ∧ r.status = stOK ∧ r.len = 12 ∧
            fieldLE r.data.toNat 0 4 = min (2 ^ 32 - 1) (((s.tenantGrans n).map (fun g => (s.wharf g).xof.toNat)).sum)) ∧
          (bit (fieldLE c 21 1) 0 = true → ∀ g ∈ s.tenantGrans n, (u.wharf g).xof = 0 ∧ (u.wharf g).xnv = 0 ∧ (u.wharf g).xuf = 0) ∧
          (bit (fieldLE c 21 1) 0 = false → u.wharves = s.wharves))))

/-- Clauses of R484, R485, R488 to R494: firmware updates: one session's update at a time, into the bank that does not run.
The conventions of log entries 96, 97 and 147 are the model's, not the spec's. -/
def Obligations.FirmwareUpdates : Prop :=
  ∀ (s : State) (f c : Nat),
    let other := 1 - (s.boot.running.map Running.bank).getD 0
    (Passes s f 0x0601 c →
      Answers (exec (.fwBegin f) s) (fun u =>
        (s.boot.update.isSome = true → Says u f (Resp.status_ stBusy) ∧ u.boot = s.boot ∧ u.nv = s.nv) ∧
        (s.boot.update = none → 120 * 2 ^ 20 < fieldLE c 16 8 → Says u f (Resp.denied 3 16) ∧ u.boot = s.boot ∧ u.nv = s.nv) ∧
        (s.boot.update = none → fieldLE c 16 8 ≤ 120 * 2 ^ 20 → Says u f Resp.done ∧ (u.bank other).valid = false ∧
          (u.bank other).pending = false ∧ (u.bank other).image = (s.bank other).image ∧
          ∃ w, u.boot.update = some w ∧ w.bank = other ∧ w.length = fieldLE c 16 8 ∧ w.port = fnPort f ∧ w.written = []))) ∧
    (∀ w bus, Passes s f 0x0602 c → SlotFree s f c → s.blockFault f c = none → s.updateOf f = some w →
      let off := fieldLE c 16 8
      let l := match bus with
        | some n => (s.descBytes c).take (4096 * n)
        | none => s.descBytes c
      Answers (exec (.fwBlock f bus) s) (fun u => Begins s u f c ∧ Settled u f c (if bus.isSome then stIntegrity else stOK) ∧
        (u.bank w.bank).image = (s.bank w.bank).image.writeBytes off l ∧ (u.bank w.bank).factory = false ∧
        ∃ y, u.boot.update = some y ∧ y.touched = s.now ∧ y.length = w.length ∧ y.data = w.data.writeBytes off l ∧
          (∀ k ∈ w.written, k ∈ y.written) ∧ ∀ i, i < cdiv l.length 4096 → off / 4096 + i ∈ y.written)) ∧
    (∀ r bus, Passes s f 0x0602 c → s.blockFault f c = some r → exec (.fwBlock f bus) s = .next (s.respond f r)) ∧
    (∀ flips, Passes s f 0x0603 c → SlotFree s f c →
      Answers (exec (.fwCommit f flips) s) (fun u => Begins s u f c ∧
        (s.updateOf f = none → Settled u f c stDenied ∧ u.nv = s.nv ∧ u.boot = s.boot) ∧
        (∀ w, s.updateOf f = some w →
          let m := flips.foldl (fun (m : Mem) p => m.write p.1 (BitVec.ofNat 8 p.2)) (s.bank w.bank).image
          u.boot.update = none ∧
          ((∃ k, k < cdiv w.length 4096 ∧ k ∉ w.written) → Settled u f c stImage ∧ (u.bank w.bank).valid = (s.bank w.bank).valid) ∧
          (∀ v, (∀ k, k < cdiv w.length 4096 → k ∈ w.written) → imgField m 4 1 ≠ 2 →
            m.filter (fun x => decide (x.1 < w.length)) = w.data.filter (fun x => decide (x.1 < w.length)) →
            checkFirmware m w.length s.nv.revoked s.nv.fuses = .ok v →
            Settled u f c stOK ∧ (u.bank w.bank).valid = true ∧ (u.bank w.bank).pending = true ∧ (u.bank w.bank).fails = 0) ∧
          (∀ e, (∀ k, k < cdiv w.length 4096 → k ∈ w.written) → imgField m 4 1 ≠ 2 →
            checkFirmware m w.length s.nv.revoked s.nv.fuses = .error e →
            Settled u f c (if e = 5 then stRollback else stImage) ∧ (u.bank w.bank).valid = (s.bank w.bank).valid)))) ∧
    (Passes s f 0x0604 c →
      Answers (exec (.fwStatus f) s) (fun u => u.nv = s.nv ∧ ∃ r, Says u f r ∧ r.status = stOK ∧ r.len = 9 ∧
        fieldLE r.data.toNat 0 1 = b2n s.nv.activeB ∧ fieldLE r.data.toNat 4 2 = (s.bank 0).release % 2 ^ 16 ∧
        fieldLE r.data.toNat 6 2 = (s.bank 1).release % 2 ^ 16 ∧ fieldLE r.data.toNat 8 1 = b2n s.boot.update.isSome)) ∧
    (∀ w, s.boot.update = some w → w.touched + 600000000000 ≤ s.now →
      Answers (exec .fwUpdateIdleTimeout s) (fun u => u.boot = { s.boot with update := none } ∧ u.nv = s.nv))

/-- Clauses of R501 to R506: the clock and the calibration.
The conventions of log entries 14 and 148 are the model's, not the spec's. -/
def Obligations.ClockAndCalibration : Prop :=
  ∀ (s : State) (f c : Nat),
    (Passes s f 0x0702 c →
      let t := dateOf s.nv.rtc.count
      Answers (exec (.timeGet f) s) (fun u => u.nv = s.nv ∧
        (s.nv.rtc.valid = false → Says u f (Resp.status_ stTimeInvalid)) ∧
        (s.nv.rtc.valid = true → ∃ r, Says u f r ∧ r.status = stOK ∧ r.len = 16 ∧ fieldLE r.data.toNat 0 2 = t.year % 2 ^ 16 ∧
          fieldLE r.data.toNat 2 1 = t.month % 2 ^ 8 ∧ fieldLE r.data.toNat 3 1 = t.day % 2 ^ 8 ∧
          fieldLE r.data.toNat 4 1 = t.hour ∧ fieldLE r.data.toNat 5 1 = t.minute ∧ fieldLE r.data.toNat 6 1 = t.second ∧
          fieldLE r.data.toNat 8 8 = s.now % 2 ^ 64))) ∧
    (Passes s f 0x0703 c →
      let i := fieldLE c 18 2
      Answers (exec (.calRead f) s) (fun u => u.nv = s.nv ∧
        (∀ b, calBounds i = some b → fieldLE c 16 1 = 0 → Says u f (Resp.ok 4 (s32 (Config.factoryCal i)))) ∧
        (∀ lo hi, calBounds i = some (lo, hi) → fieldLE c 16 1 = 1 → ∃ r, Says u f r ∧ r.status = stOK ∧ r.len = 12 ∧
          fieldLE r.data.toNat 0 4 = s32 (Tbl.get 0 s.userDeltas i) ∧ fieldLE r.data.toNat 4 4 = s32 lo ∧ fieldLE r.data.toNat 8 4 = s32 hi) ∧
        ((calBounds i = none ∨ 2 ≤ fieldLE c 16 1) → ∃ r, Says u f r ∧ r.status = stDenied))) ∧
    (Passes s f 0x0704 c →
      let i := fieldLE c 18 2
      let d := sext (fieldLE c 24 4) 32
      Answers (exec (.calWrite f) s) (fun u =>
        (calBounds i = none → Says u f (Resp.denied 3 18) ∧ u.nv = s.nv) ∧
        (∀ lo hi, calBounds i = some (lo, hi) →
          ((d < lo ∨ hi < d) → Says u f (Resp.denied 3 24) ∧ u.nv = s.nv) ∧
          (lo ≤ d → d ≤ hi → s.nv.calRestore = true → Says u f (Resp.status_ stBusy) ∧ u.nv = s.nv) ∧
          (lo ≤ d → d ≤ hi → s.nv.calRestore = false → Says u f Resp.done ∧ Tbl.get 0 u.nv.userCal i = d ∧
            (s.quiescent = true → Tbl.get 0 u.boot.calUsed i = d ∧ u.nv.calStored = []) ∧
            (s.quiescent = false → i ∈ u.nv.calStored ∧ u.boot.calUsed = s.boot.calUsed))))) ∧
    (Passes s f 0x0705 c → SlotFree s f c →
      Answers (exec (.calRestoreFactory f) s) (fun u => Begins s u f c ∧
        (s.quiescent = true → Settled u f c stOK ∧ u.nv.userCal = [] ∧ u.boot.calUsed = [] ∧ u.nv.calRestore = false) ∧
        (s.quiescent = false → Waits u f c ∧ u.nv.calRestore = true ∧ u.nv.userCal = s.nv.userCal))) ∧
    (s.boot.phase = .ready → s.quiescent = true →
      (s.nv.calRestore = true → Answers (exec .calApply s) (fun u => u.nv.userCal = [] ∧ u.boot.calUsed = [] ∧ u.nv.calRestore = false ∧
        u.boot.restore = [])) ∧
      (s.nv.calRestore = false → s.nv.calStored ≠ [] → Answers (exec .calApply s) (fun u => u.boot.calUsed = s.userDeltas ∧
        u.nv.calStored = [] ∧ u.nv.userCal = s.nv.userCal)))

/-- Clauses of R81, R407, R473: TILE_READ, TILE_WRITE and SYNC_SET reach one tile of the function's own region, and nothing outside
it; a read counts the words it corrects (R90).
The conventions of log entries 140 and 141 are the model's, not the spec's. -/
def Obligations.DebugAccesses : Prop :=
  ∀ (s : State) (f c p : Nat), s.debugTile f (fieldLE c 16 1) (fieldLE c 17 1) = some p →
    let space := fieldLE c 18 1
    let off := fieldLE c 20 4
    let n := fieldLE c 24 2
    let on := s.power.pdOn.getLsbD (debugTarget p space).pd
    (∀ ups busy, Passes s f 0x0801 c →
      Answers (exec (.tileRead f ups busy) s) (fun u =>
        (∀ r, spanFault space off n = some r → Says u f r ∧ u.tiles = s.tiles) ∧
        (spanFault space off n = none → on = false → Says u f (Resp.fail stNotReady (0x100 + (debugTarget p space).pd)) ∧ u.tiles = s.tiles) ∧
        (spanFault space off n = none → on = true →
          (∀ q, q ≠ p → u.tile q = s.tile q) ∧
          (ups = [] → (u.tile p).mem = (s.tile p).mem ∧ (u.tile p).core = (s.tile p).core ∧ (u.tile p).chk = (s.tile p).chk ∧
            ((∀ k, (s.tile p).chk.find k ≠ some .corrected) → u.tile p = s.tile p)) ∧
          (space = 1 → busy = true → Says u f (Resp.status_ stBusy)) ∧
          (∀ k, space = 1 → busy = false → (u.tile p).firstBad (off / 8) (n / 8) = some k → Says u f (Resp.fail stIntegrity k)) ∧
          (space = 1 → busy = false → (u.tile p).firstBad (off / 8) (n / 8) = none → ∃ r, Says u f r ∧ r.status = stOK ∧ r.len = 16 + n ∧
            ∀ k, k < n → fieldLE r.data.toNat (16 + k) 1 = ((u.tile p).mem.read (off + k)).toNat) ∧
          (space ≠ 1 → ∃ r, Says u f r ∧ r.status = stOK ∧ r.len = 16 + n ∧
            ∀ k, k < n / 8 → fieldLE r.data.toNat (16 + 8 * k) 8 = u.debugWord (fnNum f - 1) p space (off + 8 * k) % 2 ^ 64)))) ∧
    (∀ stuck, Passes s f 0x0802 c →
      Answers (exec (.tileWrite f stuck) s) (fun u => (∀ q, q ≠ p → u.tile q = s.tile q) ∧
        (∀ r, spanFault space off n = some r → Says u f r ∧ u.tiles = s.tiles) ∧
        (spanFault space off n = none → (space = 5 ∨ space = 7) → Says u f (Resp.denied 3 18) ∧ u.tiles = s.tiles) ∧
        (spanFault space off n = none → space = 1 → on = true →
          let m := 8 * (match stuck with
            | some k => min k (n / 8)
            | none => n / 8)
          Says u f (if stuck.isSome then Resp.status_ stBusy else Resp.done) ∧
          (Memory.wf (s.tile p).mem = true → ∀ k, k < m → ((u.tile p).mem.read (off + k)).toNat = fieldLE c (32 + k) 1) ∧
          (∀ a, (a < off ∨ off + m ≤ a) → (u.tile p).mem.read a = (s.tile p).mem.read a) ∧
          (u.tile p).core = (s.tile p).core) ∧
        (spanFault space off n = none → space = 2 → off = 0 → n = 8 → on = true → Says u f Resp.done ∧ (u.tile p).mem = (s.tile p).mem ∧
          (u.tile p).core.fstat = (s.tile p).core.fstat &&& ~~~BitVec.ofNat 5 (fieldLE c 32 224)))) ∧
    (Passes s f 0x0803 c →
      Answers (exec (.syncSet f) s) (fun u => (∀ q, q ≠ p → u.tile q = s.tile q) ∧
        ((s.tile p).sync.find space = none → Says u f (Resp.denied 3 18) ∧ u.tiles = s.tiles) ∧
        (∀ o, (s.tile p).sync.find space = some o → s.power.pdOn.getLsbD (tileTarget p).pd = true →
          Says u f (Resp.ok 2 o.count.toNat) ∧
          (u.tile p).sync.find space = some { o with count := BitVec.ofNat 16 (fieldLE c 20 2) } ∧
          (∀ h, h ≠ space → (u.tile p).sync.find h = (s.tile p).sync.find h) ∧ (u.tile p).mem = (s.tile p).mem)))

/-- Clauses of R180, R181, R425: breakpoints, stops, resumption and the query of a scalar core in the debugger's region.
Clauses of R69, R425, R426: a halt or a trace is scheduled at a lock, and a lock that has gone past is answered LATE with the next.
The conventions of log entries 140 and 142 are the model's, not the spec's. -/
def Obligations.BeagleCommands : Prop :=
  (
  ∀ (s : State) (f c p : Nat), Passes s f 0x0804 c → s.debugTile f (fieldLE c 17 1) (fieldLE c 18 1) = some p →
      s.power.pdOn.getLsbD (tileTarget p).pd = true →
      let op := fieldLE c 16 1
      let b := fieldLE c 19 1
      let t := s.tile p
      (op = 0 → Answers (exec (.beagleSetBreakpoint f) s) (fun u => (∀ q, q ≠ p → u.tile q = s.tile q) ∧
        (3 < b → Says u f (Resp.denied 3 19) ∧ u.tile p = t) ∧
        (b ≤ 3 → 4095 < fieldLE c 20 2 → Says u f (Resp.denied 3 20) ∧ u.tile p = t) ∧
        (b ≤ 3 → fieldLE c 20 2 ≤ 4095 → Says u f Resp.done ∧ u.tile p = { t with brk := t.brk.set b (fieldLE c 20 2) }))) ∧
      (op = 1 → Answers (exec (.beagleClearBreakpoint f) s) (fun u => (∀ q, q ≠ p → u.tile q = s.tile q) ∧
        (3 < b → Says u f (Resp.denied 3 19) ∧ u.tile p = t) ∧
        (b ≤ 3 → Says u f Resp.done ∧ u.tile p = { t with brk := t.brk.del b }))) ∧
      (op = 2 → Answers (exec (.beagleStop f) s) (fun u => Says u f Resp.done ∧ (∀ q, q ≠ p → u.tile q = s.tile q) ∧
        ((t.faulted = true ∨ t.core.stop.isSome = true) → u.tile p = t) ∧
        (t.faulted = false → t.core.stop = none →
          (u.tile p).core.g = t.core.g ∧ (u.tile p).core.f = t.core.f ∧ (u.tile p).mem = t.mem ∧ (u.tile p).core.pc = t.core.pc ∧
          ((t.core.act = .run ∨ (∃ h w, t.core.act = .swait h w) ∨ (∃ h w, t.core.act = .await h w)) →
            (u.tile p).core.stop = some .stop ∧ (u.tile p).core.act = .run) ∧
          (((∃ q o, t.core.act = .issStall q o) ∨ t.core.act = .lockStall) → (u.tile p).core.stop = none ∧
            (u.tile p).core.stopReq = true ∧ (u.tile p).core.act = t.core.act)))) ∧
      (op = 3 → Answers (exec (.beagleResume f) s) (fun u => Says u f Resp.done ∧ (∀ q, q ≠ p → u.tile q = s.tile q) ∧
        (t.core.stop = none → u.tile p = t) ∧
        (t.core.stop.isSome = true → u.tile p = { t with core := { t.core with stop := none, stepOver := true } }))) ∧
      (op = 4 → Answers (exec (.beagleQuery f) s) (fun u => u.tiles = s.tiles ∧ ∃ r, Says u f r ∧ r.status = stOK ∧ r.len = 16 ∧
        fieldLE r.data.toNat 0 2 = t.core.pc.toNat ∧
        bit (fieldLE r.data.toNat 2 1) 0 = (t.faulted || t.core.stop.isSome) ∧
        fieldLE r.data.toNat 4 4 = t.core.fstat.toNat ∧ fieldLE r.data.toNat 8 8 = t.core.cycle.toNat))) ∧
  (
  ∀ (s : State) (f c : Nat), Passes s f 0x0804 c →
      let op := fieldLE c 16 1
      let l := fieldLE c 24 6
      (beagleCtx f c = none →
        (op = 5 → exec (.beagleScheduleHalt f) s = .next (s.respond f (Resp.denied 3 30))) ∧
        (op = 6 → exec (.beagleScheduleTrace f) s = .next (s.respond f (Resp.denied 3 30)))) ∧
      (∀ x, beagleCtx f c = some x → (s.ctx x).state = .aborted →
        (op = 5 → exec (.beagleScheduleHalt f) s = .next (s.respond f (Resp.denied 6 0))) ∧
        (op = 6 → exec (.beagleScheduleTrace f) s = .next (s.respond f (Resp.denied 6 0)))) ∧
      (∀ x, beagleCtx f c = some x → (s.ctx x).state ≠ .aborted →
        let first := (s.ctx x).gathering
        let next := first + (if (s.ctx x).gatherSent then 1 else 0)
        let at_ := max l next
        (op = 5 → Answers (exec (.beagleScheduleHalt f) s) (fun u => (u.ctx x).haltAt = (s.ctx x).haltAt ++ [at_] ∧
          (u.ctx x).traceAt = (s.ctx x).traceAt ∧ (u.ctx x).state = (s.ctx x).state ∧ u.tiles = s.tiles ∧
          Says u f { Resp.ok 6 at_ with rflags := if l < next then 2 else 0 })) ∧
        (op = 6 → Answers (exec (.beagleScheduleTrace f) s) (fun u => (u.ctx x).traceAt = some (max l first) ∧
          (u.ctx x).haltAt = (s.ctx x).haltAt ∧ (u.ctx x).state = (s.ctx x).state ∧ u.tiles = s.tiles ∧
          Says u f { Resp.ok 6 (max l first) with rflags := if l < first then 2 else 0 }))))

/-- Clauses of R368: SPDM negotiation, with the capabilities, algorithms and certificates that it states, goes stage by stage, and a
request out of turn is answered with an error and changes nothing.
The order of the stages and which requests end sessions are the model's, from SPDM 1.2 (log entries 113 and 114).
Clauses of R295, R368, R369, R370: what needs randomness is answered from the DRBG, waits for it, or is answered with an error
where it cannot be served; at most four sessions of a function, each with its own secret, established by FINISH and ended by
END_SESSION.
The conventions of log entries 115, 178 and 179 are the model's, not the spec's. -/
def Obligations.SpdmResponder : Prop :=
  (
  ∀ (s : State) (f slot : Nat), f < 514 → s.fnExists f = true → s.lk.state = .ready →
      let p := (s.fn f).spdm
      let refuse (c : Instr) := Answers (exec c s) (fun u => (u.fn f).spdm = { p with out := p.out ++ [.error .unexpectedRequest] })
      let invalid (c : Instr) := Answers (exec c s) (fun u => (u.fn f).spdm = { p with out := p.out ++ [.error .invalidRequest] })
      let say (c : Instr) (q : Spdm) := Answers (exec c s) (fun u => (u.fn f).spdm = q ∧ u.tiles = s.tiles ∧ u.hold = s.hold ∧
        ∀ g, g ≠ f → u.fn g = s.fn g)
      say (.getVersion f) { p with stage := 1, sessions := [], out := p.out ++ [.version 0x12] } ∧
      (p.stage = 1 → say (.getCapabilities f) { p with stage := 2, out := p.out ++ [.capabilities [.cert, .chal, .measSig, .keyEx, .mac, .encrypt, .hbeat, .keyUpd]] }) ∧
      (p.stage ≠ 1 → refuse (.getCapabilities f)) ∧
      (p.stage = 2 → say (.negotiateAlgorithms f) { p with stage := 3, out := p.out ++ [.algorithms .ecdsaP384 .sha384 .sha384 .secp384r1 .aes256Gcm] }) ∧
      (p.stage ≠ 2 → refuse (.negotiateAlgorithms f)) ∧
      (3 ≤ p.stage → say (.getDigests f) { p with out := p.out ++ [.digests [(0, digestNum (sha384 s.certChain.flatten))]] } ∧
        (slot = 0 → say (.getCertificate f slot) { p with out := p.out ++ [.certificate s.certChain] }) ∧
        (slot ≠ 0 → invalid (.getCertificate f slot) ∧ invalid (.challenge f slot))) ∧
      (p.stage < 3 → refuse (.getDigests f) ∧ refuse (.getCertificate f slot) ∧ refuse (.challenge f slot) ∧
        refuse (.getMeasurements f slot) ∧ refuse (.keyExchange f) ∧ refuse (.finish f slot) ∧ refuse (.heartbeat f slot) ∧
        refuse (.keyUpdate f slot) ∧ refuse (.endSession f slot))) ∧
  (
  ∀ (s : State) (f i : Nat), f < 514 → s.fnExists f = true → s.lk.state = .ready → 3 ≤ (s.fn f).spdm.stage →
      let p := (s.fn f).spdm
      let free := (List.range 4).find? (fun k => (p.sessions.find k).isNone)
      let tells (u : State) (a : SpdmAnswer) := (u.fn f).spdm = { p with out := p.out ++ [a] }
      let failing (u : State) (need : SpdmNeed) :=
        (s.drawNow need.pr = .waits → s.entropy.st = .restarting → tells u (.error .busy)) ∧
        (s.drawNow need.pr = .waits → s.entropy.st ≠ .restarting → (u.fn f).spdm = p ∧
          u.entropy.waiting = s.entropy.waiting ++ [(.spdm f need, need.pr)]) ∧
        (s.drawNow need.pr = .fails → tells u (.error .unspecified))
      Answers (exec (.challenge f 0) s) (fun u => failing u .challenge ∧
        (s.drawNow false = .served → ∃ n, tells u (.challengeAuth n) ∧ u.entropy.requests = s.entropy.requests + 1)) ∧
      Answers (exec (.getMeasurements f 255) s) (fun u => failing u (.measurements 255) ∧
        (s.drawNow false = .served → ∃ n, tells u (.measurements n ((s.measurementsOf f).map Meas.block)))) ∧
      Answers (exec (.getMeasurements f 0) s) (fun u => failing u (.measurements 0) ∧
        (s.drawNow false = .served → ∃ n, tells u (.measurementCount n (s.measurementsOf f).length))) ∧
      (i ≠ 0 → i ≠ 255 →
        (∀ m, s.measurement f i = some m → Answers (exec (.getMeasurements f i) s) (fun u => failing u (.measurements i) ∧
          (s.drawNow false = .served → ∃ n, tells u (.measurements n [m.block])))) ∧
        (s.measurement f i = none → Answers (exec (.getMeasurements f i) s) (fun u => tells u (.error .invalidRequest)))) ∧
      (free = none → Answers (exec (.keyExchange f) s) (fun u => tells u (.error .sessionLimit))) ∧
      (∀ k, free = some k → Answers (exec (.keyExchange f) s) (fun u => failing u .keyExchange ∧
        (s.drawNow true = .served → (∃ x, (u.fn f).spdm.sessions.find k = some x ∧ x.finished = false ∧ x.updates = 0) ∧
          ∀ j, j ≠ k → (u.fn f).spdm.sessions.find j = p.sessions.find j))) ∧
      (∀ x, p.sessions.find i = some x → x.finished = false →
        Answers (exec (.finish f i) s) (fun u => (u.fn f).spdm.sessions.find i = some { x with finished := true } ∧
          (∀ j, j ≠ i → (u.fn f).spdm.sessions.find j = p.sessions.find j) ∧ u.entropy = s.entropy) ∧
        Answers (exec (.heartbeat f i) s) (fun u => tells u (.error .unexpectedRequest)) ∧
        Answers (exec (.keyUpdate f i) s) (fun u => tells u (.error .unexpectedRequest)) ∧
        Answers (exec (.endSession f i) s) (fun u => tells u (.error .unexpectedRequest))) ∧
      (∀ x, p.sessions.find i = some x → x.finished = true →
        Answers (exec (.finish f i) s) (fun u => tells u (.error .unexpectedRequest)) ∧
        Answers (exec (.heartbeat f i) s) (fun u => tells u (.heartbeat i)) ∧
        Answers (exec (.keyUpdate f i) s) (fun u => (u.fn f).spdm.sessions.find i = some { x with updates := x.updates + 1 } ∧
          (∀ j, j ≠ i → (u.fn f).spdm.sessions.find j = p.sessions.find j)) ∧
        Answers (exec (.endSession f i) s) (fun u => (u.fn f).spdm.sessions.find i = none ∧
          (∀ j, j ≠ i → (u.fn f).spdm.sessions.find j = p.sessions.find j))))

/-- A step takes the command at the front of the queue and is its exec on the state with the queue's rest; with nothing waiting the
block idles (the model's choice, log entry 1). -/
def Obligations.StepRunsTheFront : Prop :=
  ∀ (s : State),
    (∀ (c : Instr) (rest : List Instr), s.pending = c :: rest → step s = exec c { s with pending := rest }) ∧
    (s.pending = [] → step s = .next s)

/-- A command stops the block exactly where an operand names a unit that the part does not have, always by that name; every other
command is answered by a next state, in every state (the stop is the model's, log entry 2). -/
def Obligations.FaultsAreIllFormedCommands : Prop :=
  ∀ (c : Instr) (s : State),
    (c.wf = false → exec c s = .fault .noSuchUnit) ∧
    (c.wf = true → ∃ t, exec c s = .next t)

/-- No command touches the queue or the grade that the part was ordered with, and the time base goes on by one nanosecond at its tick
and at nothing else (R54, CK56).
The conventions of log entry 7 are the model's, not the spec's. -/
def Obligations.QueueAndTimeFrame : Prop :=
  ∀ (c : Instr) (s t : State), exec c s = .next t →
    t.pending = s.pending ∧ t.orderedS = s.orderedS ∧ t.now = s.now + (if c = .timeBaseTick then 1 else 0)

/-- Every step keeps the canonical form of every memory that the block holds: the Hold's plaintext, the host's memory, tile memory,
the flash banks and an open update's data. -/
def Obligations.StepsKeepMemoriesCanonical : Prop :=
  ∀ (s t : State), s.memoriesWf = true → step s = .next t → t.memoriesWf = true

/-- The memories at reset are in canonical form, so that the invariant of every step holds there. -/
def Obligations.ResetMemoriesCanonical : Prop :=
  State.reset.memoriesWf = true

/-- Clauses of R378, R336, R352, R474: the block at reset, before power is good: nothing waits, no session, tenant, domain or link is up, every core is
off and the Lockkeeper is booting; every byte of the Hold and of tile memory reads zero (log entry 3).
The conventions of log entries 5, 6, 15 and 164 are the model's, not the spec's. -/
def Obligations.ResetState : Prop :=
  let s := State.reset
  s.pending = [] ∧ s.boot.phase = .off ∧ s.lk.state = .booting ∧ s.nv.activeB = false ∧ s.power.pdOn = 1 ∧
  (∀ t, (s.tile t).core.act = .off ∧ (s.tile t).faulted = false ∧ ∀ a, (s.tile t).mem.read a = 0) ∧
  (∀ f, (s.fn f).version = none ∧ (s.fn f).eq = none ∧ (s.fn f).slots = []) ∧
  (∀ p, (s.port p).state = .down) ∧ (∀ n, (s.tenant n).st = .free) ∧ (∀ c, (s.ctx c).loaded = false) ∧ (∀ a, s.hold.read a = 0)

/-- R162: integer division never faults, and its corners. -/
def Obligations.IntegerDivision : Prop :=
  ∀ (s : State) (t : Nat), Ready s t 0x02 →
    let tl := s.tile t
    let w := tl.instr
    let a := tl.gr (iRA w)
    let b := tl.gr (iRB w)
    let writes (v : Word) : Out := .next (ScalarNext s t (tl.setG (iRD w) v) (tl.core.pc.toNat + 1) 34)
    (iFN w = 0x014 ∨ iFN w = 0x015 ∨ iFN w = 0x016 ∨ iFN w = 0x017 → ∃ v, exec (.alu t) s = writes v) ∧
    (b = 0#32 →
      (iFN w = 0x014 → exec (.alu t) s = writes 0xFFFFFFFF#32) ∧ (iFN w = 0x015 → exec (.alu t) s = writes 0xFFFFFFFF#32) ∧
      (iFN w = 0x016 → exec (.alu t) s = writes a) ∧ (iFN w = 0x017 → exec (.alu t) s = writes a)) ∧
    (a = 0x80000000#32 → b = 0xFFFFFFFF#32 →
      (iFN w = 0x014 → exec (.alu t) s = writes 0x80000000#32) ∧ (iFN w = 0x016 → exec (.alu t) s = writes 0#32)) ∧
    (b ≠ 0#32 →
      (iFN w = 0x014 → exec (.alu t) s = writes (BitVec.ofInt 32 (Int.tdiv a.toInt b.toInt))) ∧
      (iFN w = 0x015 → exec (.alu t) s = writes (BitVec.ofNat 32 (a.toNat / b.toNat))) ∧
      (iFN w = 0x016 → exec (.alu t) s = writes (BitVec.ofInt 32 (Int.tmod a.toInt b.toInt))) ∧
      (iFN w = 0x017 → exec (.alu t) s = writes (BitVec.ofNat 32 (a.toNat % b.toNat))))

/-- R123: how two partials combine; commutative, associative where HIGH stays clear, and without saturation for up to 2^24 partials
that lie within the 96-bit window, as every partial that a drain exports does. -/
def Obligations.PartialsCombine : Prop :=
  ∀ (a b c : Win),
    let v := a.value + b.value
    (combineWin a b).value = (if 2 ^ 119 - 1 < v then 2 ^ 119 - 1 else if v < -(2 ^ 119) then -(2 ^ 119) else v) ∧
    (combineWin a b).low = (a.low || b.low) ∧ (combineWin a b).nonfinite = (a.nonfinite || b.nonfinite) ∧
    (combineWin a b).high = (decide (2 ^ 119 - 1 < v) || decide (v < -(2 ^ 119)) || a.high || b.high) ∧
    combineWin a b = combineWin b a ∧
    ((combineWin (combineWin a b) c).high = false → (combineWin a (combineWin b c)).high = false →
      combineWin (combineWin a b) c = combineWin a (combineWin b c)) ∧
    (∀ m n : Nat, m + n ≤ 2 ^ 24 → -(m * 2 ^ 95 : Int) ≤ a.value → a.value ≤ m * (2 ^ 95 - 1) →
      -(n * 2 ^ 95 : Int) ≤ b.value → b.value ≤ n * (2 ^ 95 - 1) →
      (combineWin a b).value = a.value + b.value ∧ (combineWin a b).high = (a.high || b.high) ∧
      -(((m + n : Nat) : Int) * 2 ^ 95) ≤ (combineWin a b).value ∧ (combineWin a b).value ≤ ((m + n : Nat) : Int) * (2 ^ 95 - 1)) ∧
    (∀ l : List Win, l.length ≤ 2 ^ 24 → (∀ w ∈ l, -(2 ^ 95) ≤ w.value ∧ w.value ≤ 2 ^ 95 - 1) →
      (l.foldl combineWin {}).value = (l.map Win.value).sum ∧ (l.foldl combineWin {}).high = l.any Win.high) ∧
    (∀ o d row, drPartial o →
      (drainRow o d row).1 = (drainVals true row).map (fun p => winBits p.2) ∧
      ∀ p ∈ drainVals true row, -(2 ^ 95) ≤ p.2.value ∧ p.2.value ≤ 2 ^ 95 - 1)

/-- Clauses of R504: TIME_SET checks its fields; a failed check leaves clock, count and validity alone, a valid date starts the written second
and posts a TIME event of subtype 2. -/
def Obligations.TimeSetChecksItsDate : Prop :=
  ∀ (s : State) (f c : Nat), Passes s f 0x0701 c →
    let y := fieldLE c 16 2
    let m := fieldLE c 18 1
    let d := fieldLE c 19 1
    let h := fieldLE c 20 1
    let mi := fieldLE c 21 1
    let sec := fieldLE c 22 1
    let leap := (y % 4 = 0 ∧ y % 100 ≠ 0) ∨ y % 400 = 0
    let dim : List Nat := [31, if leap then 29 else 28, 31, 30, 31, 30, 31, 31, 30, 31, 30, 31]
    let valid : Prop := 2000 ≤ y ∧ y ≤ 2399 ∧ 1 ≤ m ∧ m ≤ 12 ∧ 1 ≤ d ∧ d ≤ dim.getD (m - 1) 0 ∧ h ≤ 23 ∧ mi ≤ 59 ∧ sec ≤ 59
    let count := 86400 * (daysBefore y + (dim.take (m - 1)).sum + d - 1) + 3600 * h + 60 * mi + sec
    let set := { s with nv := { s.nv with rtc := { s.nv.rtc with count := count, frac := 0, valid := true } } }
    (¬ valid → exec (.timeSet f) s = .next (s.respond f (Resp.status_ stBadDate))) ∧
    (valid → exec (.timeSet f) s = .next ((set.postNum 0 (timeEvent set 2 0)).respond f Resp.done))

/-- R190: a flit that reaches a router holding no valid entry for its channel, or on an input whose IN bit is clear, or on a lane
that differs from the entry's LANE, is dropped there as a route miss: counted, recorded and in no buffer. A flit reaches a router
over a mesh link (with no header error, through an open port) or at its local input. -/
def Obligations.RouteMisses : Prop :=
  ∀ (s : State) (t : Nat), t < 9216 →
    let misses (v port : Nat) (f : Flit) : Prop :=
      (s.router v).route f.ch = none ∨
      ∃ e, (s.router v).route f.ch = some e ∧ (bit (rteIn e) port = false ∨ rteLane e ≠ f.lane)
    let dropped (v port : Nat) (f : Flit) (u : State) : Prop :=
      (u.router v).miss = BitVec.ofNat 16 (min ((s.router v).miss.toNat + 1) 65535) ∧
      (u.router v).status = (s.router v).status ||| 2#5 ∧
      (u.router v).lastDrop = BitVec.ofNat 64 (f.ch % 4096 + 4096 * (port % 8) + 32768 * (f.lane % 8) + 262144) ∧
      (u.router v).inq = (s.router v).inq ∧ (u.router v).localOut = (s.router v).localOut ∧
      (u.router v).fence = (s.router v).fence ∧ (u.router v).mismatch = (s.router v).mismatch ∧ (u.router v).hdrUe = (s.router v).hdrUe
    (∀ o bad c v, 0 < o → o < 5 → bestCand ((s.router t).cands o |>.filter (s.credited t o)) = some c → s.tileClocked t →
      (s.router t).open? o → s.neighbour t o = some v → v ≠ t → (s.router v).open? (opposite o) →
      misses v (opposite o) c.flit →
      Answers (exec (.routerForward t o 0 bad) s) (dropped v (opposite o) c.flit)) ∧
    (∀ ups sd o x, s.enginesRun t → (s.tile t).xe.exec = some o → (s.tile t).sending = some sd →
      (if sd.sent % 8 = 0 then ((s.tile t).upsets ups).readSpan (xSRC o + 64 * sd.sent) 512 else (s.tile t, none)) = (x, none) →
      ((s.router t).route (xCH o) = none ∨ ∃ e, (s.router t).route (xCH o) = some e ∧ bit (rteIn e) 0 = false ∧
        (Tbl.get [] (s.router t).inq (rteLane e)).length < 8) →
      let lane := (((s.router t).route (xCH o)).map rteLane).getD 0
      Answers (exec (.flitInject t (ups, 0)) s) (fun u =>
        dropped t 0 { ch := xCH o, dst := 0, acnt := 0, lane := lane, payload := 0 } u ∧
        (sd.sent + 1 < xNFLIT o → ∃ blk, (u.tile t).sending = some { sent := sd.sent + 1, block := blk }) ∧
        (sd.sent + 1 = xNFLIT o → (u.tile t).sending = none ∧ (u.tile t).xe.owed = (s.tile t).xe.owed ++ [o])))
end

