-- ==== Sys2Proof/Laws/State.lean ====
section
/-! SUPPORT. What each update of the state leaves in each field, and the update through a function as the update itself. -/

namespace Sys2Proof.Machine

/-! ### State.setTile -/

section
variable (s : State) (t : Nat) (v : Tile)
@[simp] theorem State.setTile_pending : (s.setTile t v).pending = s.pending := rfl
@[simp] theorem State.setTile_now : (s.setTile t v).now = s.now := rfl
@[simp] theorem State.setTile_free : (s.setTile t v).free = s.free := rfl
@[simp] theorem State.setTile_dies : (s.setTile t v).dies = s.dies := rfl
@[simp] theorem State.setTile_tiles : (s.setTile t v).tiles = s.tiles.set t v := rfl
@[simp] theorem State.setTile_routers : (s.setTile t v).routers = s.routers := rfl
@[simp] theorem State.setTile_ctxs : (s.setTile t v).ctxs = s.ctxs := rfl
@[simp] theorem State.setTile_tenants : (s.setTile t v).tenants = s.tenants := rfl
@[simp] theorem State.setTile_fns : (s.setTile t v).fns = s.fns := rfl
@[simp] theorem State.setTile_hostMem : (s.setTile t v).hostMem = s.hostMem := rfl
@[simp] theorem State.setTile_vfs : (s.setTile t v).vfs = s.vfs := rfl
@[simp] theorem State.setTile_hold : (s.setTile t v).hold = s.hold := rfl
@[simp] theorem State.setTile_wharves : (s.setTile t v).wharves = s.wharves := rfl
@[simp] theorem State.setTile_egress : (s.setTile t v).egress = s.egress := rfl
@[simp] theorem State.setTile_transit : (s.setTile t v).transit = s.transit := rfl
@[simp] theorem State.setTile_holdMeta : (s.setTile t v).holdMeta = s.holdMeta := rfl
@[simp] theorem State.setTile_stackTbl : (s.setTile t v).stackTbl = s.stackTbl := rfl
@[simp] theorem State.setTile_quadrants : (s.setTile t v).quadrants = s.quadrants := rfl
@[simp] theorem State.setTile_granules : (s.setTile t v).granules = s.granules := rfl
@[simp] theorem State.setTile_orderedS : (s.setTile t v).orderedS = s.orderedS := rfl
@[simp] theorem State.setTile_gradeS : (s.setTile t v).gradeS = s.gradeS := rfl
@[simp] theorem State.setTile_reserveGib : (s.setTile t v).reserveGib = s.reserveGib := rfl
@[simp] theorem State.setTile_loads : (s.setTile t v).loads = s.loads := rfl
@[simp] theorem State.setTile_mons : (s.setTile t v).mons = s.mons := rfl
@[simp] theorem State.setTile_subst : (s.setTile t v).subst = s.subst := rfl
@[simp] theorem State.setTile_detours : (s.setTile t v).detours = s.detours := rfl
@[simp] theorem State.setTile_ports : (s.setTile t v).ports = s.ports := rfl
@[simp] theorem State.setTile_fabric : (s.setTile t v).fabric = s.fabric := rfl
@[simp] theorem State.setTile_lk : (s.setTile t v).lk = s.lk := rfl
@[simp] theorem State.setTile_entropy : (s.setTile t v).entropy = s.entropy := rfl
@[simp] theorem State.setTile_power : (s.setTile t v).power = s.power := rfl
@[simp] theorem State.setTile_boot : (s.setTile t v).boot = s.boot := rfl
@[simp] theorem State.setTile_nv : (s.setTile t v).nv = s.nv := rfl
@[simp] theorem State.setTile_crossLend : (s.setTile t v).crossLend = s.crossLend := rfl
@[simp] theorem State.setTile_loops : (s.setTile t v).loops = s.loops := rfl
@[simp] theorem State.setTile_streams : (s.setTile t v).streams = s.streams := rfl
@[simp] theorem State.setTile_ushd : (s.setTile t v).ushd = s.ushd := rfl
@[simp] theorem State.setTile_replSets : (s.setTile t v).replSets = s.replSets := rfl
@[simp] theorem State.setTile_ugrp : (s.setTile t v).ugrp = s.ugrp := rfl
@[simp] theorem State.setTile_canalErr : (s.setTile t v).canalErr = s.canalErr := rfl
end

/-! ### State.setRouter -/

section
variable (s : State) (t : Nat) (v : Router)
@[simp] theorem State.setRouter_pending : (s.setRouter t v).pending = s.pending := rfl
@[simp] theorem State.setRouter_now : (s.setRouter t v).now = s.now := rfl
@[simp] theorem State.setRouter_free : (s.setRouter t v).free = s.free := rfl
@[simp] theorem State.setRouter_dies : (s.setRouter t v).dies = s.dies := rfl
@[simp] theorem State.setRouter_tiles : (s.setRouter t v).tiles = s.tiles := rfl
@[simp] theorem State.setRouter_routers : (s.setRouter t v).routers = s.routers.set t v := rfl
@[simp] theorem State.setRouter_ctxs : (s.setRouter t v).ctxs = s.ctxs := rfl
@[simp] theorem State.setRouter_tenants : (s.setRouter t v).tenants = s.tenants := rfl
@[simp] theorem State.setRouter_fns : (s.setRouter t v).fns = s.fns := rfl
@[simp] theorem State.setRouter_hostMem : (s.setRouter t v).hostMem = s.hostMem := rfl
@[simp] theorem State.setRouter_vfs : (s.setRouter t v).vfs = s.vfs := rfl
@[simp] theorem State.setRouter_hold : (s.setRouter t v).hold = s.hold := rfl
@[simp] theorem State.setRouter_wharves : (s.setRouter t v).wharves = s.wharves := rfl
@[simp] theorem State.setRouter_egress : (s.setRouter t v).egress = s.egress := rfl
@[simp] theorem State.setRouter_transit : (s.setRouter t v).transit = s.transit := rfl
@[simp] theorem State.setRouter_holdMeta : (s.setRouter t v).holdMeta = s.holdMeta := rfl
@[simp] theorem State.setRouter_stackTbl : (s.setRouter t v).stackTbl = s.stackTbl := rfl
@[simp] theorem State.setRouter_quadrants : (s.setRouter t v).quadrants = s.quadrants := rfl
@[simp] theorem State.setRouter_granules : (s.setRouter t v).granules = s.granules := rfl
@[simp] theorem State.setRouter_orderedS : (s.setRouter t v).orderedS = s.orderedS := rfl
@[simp] theorem State.setRouter_gradeS : (s.setRouter t v).gradeS = s.gradeS := rfl
@[simp] theorem State.setRouter_reserveGib : (s.setRouter t v).reserveGib = s.reserveGib := rfl
@[simp] theorem State.setRouter_loads : (s.setRouter t v).loads = s.loads := rfl
@[simp] theorem State.setRouter_mons : (s.setRouter t v).mons = s.mons := rfl
@[simp] theorem State.setRouter_subst : (s.setRouter t v).subst = s.subst := rfl
@[simp] theorem State.setRouter_detours : (s.setRouter t v).detours = s.detours := rfl
@[simp] theorem State.setRouter_ports : (s.setRouter t v).ports = s.ports := rfl
@[simp] theorem State.setRouter_fabric : (s.setRouter t v).fabric = s.fabric := rfl
@[simp] theorem State.setRouter_lk : (s.setRouter t v).lk = s.lk := rfl
@[simp] theorem State.setRouter_entropy : (s.setRouter t v).entropy = s.entropy := rfl
@[simp] theorem State.setRouter_power : (s.setRouter t v).power = s.power := rfl
@[simp] theorem State.setRouter_boot : (s.setRouter t v).boot = s.boot := rfl
@[simp] theorem State.setRouter_nv : (s.setRouter t v).nv = s.nv := rfl
@[simp] theorem State.setRouter_crossLend : (s.setRouter t v).crossLend = s.crossLend := rfl
@[simp] theorem State.setRouter_loops : (s.setRouter t v).loops = s.loops := rfl
@[simp] theorem State.setRouter_streams : (s.setRouter t v).streams = s.streams := rfl
@[simp] theorem State.setRouter_ushd : (s.setRouter t v).ushd = s.ushd := rfl
@[simp] theorem State.setRouter_replSets : (s.setRouter t v).replSets = s.replSets := rfl
@[simp] theorem State.setRouter_ugrp : (s.setRouter t v).ugrp = s.ugrp := rfl
@[simp] theorem State.setRouter_canalErr : (s.setRouter t v).canalErr = s.canalErr := rfl
end

/-! ### State.setCtx -/

section
variable (s : State) (c : Nat) (v : Ctx)
@[simp] theorem State.setCtx_pending : (s.setCtx c v).pending = s.pending := rfl
@[simp] theorem State.setCtx_now : (s.setCtx c v).now = s.now := rfl
@[simp] theorem State.setCtx_free : (s.setCtx c v).free = s.free := rfl
@[simp] theorem State.setCtx_dies : (s.setCtx c v).dies = s.dies := rfl
@[simp] theorem State.setCtx_tiles : (s.setCtx c v).tiles = s.tiles := rfl
@[simp] theorem State.setCtx_routers : (s.setCtx c v).routers = s.routers := rfl
@[simp] theorem State.setCtx_ctxs : (s.setCtx c v).ctxs = s.ctxs.set c v := rfl
@[simp] theorem State.setCtx_tenants : (s.setCtx c v).tenants = s.tenants := rfl
@[simp] theorem State.setCtx_fns : (s.setCtx c v).fns = s.fns := rfl
@[simp] theorem State.setCtx_hostMem : (s.setCtx c v).hostMem = s.hostMem := rfl
@[simp] theorem State.setCtx_vfs : (s.setCtx c v).vfs = s.vfs := rfl
@[simp] theorem State.setCtx_hold : (s.setCtx c v).hold = s.hold := rfl
@[simp] theorem State.setCtx_wharves : (s.setCtx c v).wharves = s.wharves := rfl
@[simp] theorem State.setCtx_egress : (s.setCtx c v).egress = s.egress := rfl
@[simp] theorem State.setCtx_transit : (s.setCtx c v).transit = s.transit := rfl
@[simp] theorem State.setCtx_holdMeta : (s.setCtx c v).holdMeta = s.holdMeta := rfl
@[simp] theorem State.setCtx_stackTbl : (s.setCtx c v).stackTbl = s.stackTbl := rfl
@[simp] theorem State.setCtx_quadrants : (s.setCtx c v).quadrants = s.quadrants := rfl
@[simp] theorem State.setCtx_granules : (s.setCtx c v).granules = s.granules := rfl
@[simp] theorem State.setCtx_orderedS : (s.setCtx c v).orderedS = s.orderedS := rfl
@[simp] theorem State.setCtx_gradeS : (s.setCtx c v).gradeS = s.gradeS := rfl
@[simp] theorem State.setCtx_reserveGib : (s.setCtx c v).reserveGib = s.reserveGib := rfl
@[simp] theorem State.setCtx_loads : (s.setCtx c v).loads = s.loads := rfl
@[simp] theorem State.setCtx_mons : (s.setCtx c v).mons = s.mons := rfl
@[simp] theorem State.setCtx_subst : (s.setCtx c v).subst = s.subst := rfl
@[simp] theorem State.setCtx_detours : (s.setCtx c v).detours = s.detours := rfl
@[simp] theorem State.setCtx_ports : (s.setCtx c v).ports = s.ports := rfl
@[simp] theorem State.setCtx_fabric : (s.setCtx c v).fabric = s.fabric := rfl
@[simp] theorem State.setCtx_lk : (s.setCtx c v).lk = s.lk := rfl
@[simp] theorem State.setCtx_entropy : (s.setCtx c v).entropy = s.entropy := rfl
@[simp] theorem State.setCtx_power : (s.setCtx c v).power = s.power := rfl
@[simp] theorem State.setCtx_boot : (s.setCtx c v).boot = s.boot := rfl
@[simp] theorem State.setCtx_nv : (s.setCtx c v).nv = s.nv := rfl
@[simp] theorem State.setCtx_crossLend : (s.setCtx c v).crossLend = s.crossLend := rfl
@[simp] theorem State.setCtx_loops : (s.setCtx c v).loops = s.loops := rfl
@[simp] theorem State.setCtx_streams : (s.setCtx c v).streams = s.streams := rfl
@[simp] theorem State.setCtx_ushd : (s.setCtx c v).ushd = s.ushd := rfl
@[simp] theorem State.setCtx_replSets : (s.setCtx c v).replSets = s.replSets := rfl
@[simp] theorem State.setCtx_ugrp : (s.setCtx c v).ugrp = s.ugrp := rfl
@[simp] theorem State.setCtx_canalErr : (s.setCtx c v).canalErr = s.canalErr := rfl
end

/-! ### State.setTenant -/

section
variable (s : State) (n : Nat) (v : Tenant)
@[simp] theorem State.setTenant_pending : (s.setTenant n v).pending = s.pending := rfl
@[simp] theorem State.setTenant_now : (s.setTenant n v).now = s.now := rfl
@[simp] theorem State.setTenant_free : (s.setTenant n v).free = s.free := rfl
@[simp] theorem State.setTenant_dies : (s.setTenant n v).dies = s.dies := rfl
@[simp] theorem State.setTenant_tiles : (s.setTenant n v).tiles = s.tiles := rfl
@[simp] theorem State.setTenant_routers : (s.setTenant n v).routers = s.routers := rfl
@[simp] theorem State.setTenant_ctxs : (s.setTenant n v).ctxs = s.ctxs := rfl
@[simp] theorem State.setTenant_tenants : (s.setTenant n v).tenants = s.tenants.set n v := rfl
@[simp] theorem State.setTenant_fns : (s.setTenant n v).fns = s.fns := rfl
@[simp] theorem State.setTenant_hostMem : (s.setTenant n v).hostMem = s.hostMem := rfl
@[simp] theorem State.setTenant_vfs : (s.setTenant n v).vfs = s.vfs := rfl
@[simp] theorem State.setTenant_hold : (s.setTenant n v).hold = s.hold := rfl
@[simp] theorem State.setTenant_wharves : (s.setTenant n v).wharves = s.wharves := rfl
@[simp] theorem State.setTenant_egress : (s.setTenant n v).egress = s.egress := rfl
@[simp] theorem State.setTenant_transit : (s.setTenant n v).transit = s.transit := rfl
@[simp] theorem State.setTenant_holdMeta : (s.setTenant n v).holdMeta = s.holdMeta := rfl
@[simp] theorem State.setTenant_stackTbl : (s.setTenant n v).stackTbl = s.stackTbl := rfl
@[simp] theorem State.setTenant_quadrants : (s.setTenant n v).quadrants = s.quadrants := rfl
@[simp] theorem State.setTenant_granules : (s.setTenant n v).granules = s.granules := rfl
@[simp] theorem State.setTenant_orderedS : (s.setTenant n v).orderedS = s.orderedS := rfl
@[simp] theorem State.setTenant_gradeS : (s.setTenant n v).gradeS = s.gradeS := rfl
@[simp] theorem State.setTenant_reserveGib : (s.setTenant n v).reserveGib = s.reserveGib := rfl
@[simp] theorem State.setTenant_loads : (s.setTenant n v).loads = s.loads := rfl
@[simp] theorem State.setTenant_mons : (s.setTenant n v).mons = s.mons := rfl
@[simp] theorem State.setTenant_subst : (s.setTenant n v).subst = s.subst := rfl
@[simp] theorem State.setTenant_detours : (s.setTenant n v).detours = s.detours := rfl
@[simp] theorem State.setTenant_ports : (s.setTenant n v).ports = s.ports := rfl
@[simp] theorem State.setTenant_fabric : (s.setTenant n v).fabric = s.fabric := rfl
@[simp] theorem State.setTenant_lk : (s.setTenant n v).lk = s.lk := rfl
@[simp] theorem State.setTenant_entropy : (s.setTenant n v).entropy = s.entropy := rfl
@[simp] theorem State.setTenant_power : (s.setTenant n v).power = s.power := rfl
@[simp] theorem State.setTenant_boot : (s.setTenant n v).boot = s.boot := rfl
@[simp] theorem State.setTenant_nv : (s.setTenant n v).nv = s.nv := rfl
@[simp] theorem State.setTenant_crossLend : (s.setTenant n v).crossLend = s.crossLend := rfl
@[simp] theorem State.setTenant_loops : (s.setTenant n v).loops = s.loops := rfl
@[simp] theorem State.setTenant_streams : (s.setTenant n v).streams = s.streams := rfl
@[simp] theorem State.setTenant_ushd : (s.setTenant n v).ushd = s.ushd := rfl
@[simp] theorem State.setTenant_replSets : (s.setTenant n v).replSets = s.replSets := rfl
@[simp] theorem State.setTenant_ugrp : (s.setTenant n v).ugrp = s.ugrp := rfl
@[simp] theorem State.setTenant_canalErr : (s.setTenant n v).canalErr = s.canalErr := rfl
end

/-! ### State.setFn -/

section
variable (s : State) (f : Nat) (v : Fn)
@[simp] theorem State.setFn_pending : (s.setFn f v).pending = s.pending := rfl
@[simp] theorem State.setFn_now : (s.setFn f v).now = s.now := rfl
@[simp] theorem State.setFn_free : (s.setFn f v).free = s.free := rfl
@[simp] theorem State.setFn_dies : (s.setFn f v).dies = s.dies := rfl
@[simp] theorem State.setFn_tiles : (s.setFn f v).tiles = s.tiles := rfl
@[simp] theorem State.setFn_routers : (s.setFn f v).routers = s.routers := rfl
@[simp] theorem State.setFn_ctxs : (s.setFn f v).ctxs = s.ctxs := rfl
@[simp] theorem State.setFn_tenants : (s.setFn f v).tenants = s.tenants := rfl
@[simp] theorem State.setFn_fns : (s.setFn f v).fns = s.fns.set f v := rfl
@[simp] theorem State.setFn_hostMem : (s.setFn f v).hostMem = s.hostMem := rfl
@[simp] theorem State.setFn_vfs : (s.setFn f v).vfs = s.vfs := rfl
@[simp] theorem State.setFn_hold : (s.setFn f v).hold = s.hold := rfl
@[simp] theorem State.setFn_wharves : (s.setFn f v).wharves = s.wharves := rfl
@[simp] theorem State.setFn_egress : (s.setFn f v).egress = s.egress := rfl
@[simp] theorem State.setFn_transit : (s.setFn f v).transit = s.transit := rfl
@[simp] theorem State.setFn_holdMeta : (s.setFn f v).holdMeta = s.holdMeta := rfl
@[simp] theorem State.setFn_stackTbl : (s.setFn f v).stackTbl = s.stackTbl := rfl
@[simp] theorem State.setFn_quadrants : (s.setFn f v).quadrants = s.quadrants := rfl
@[simp] theorem State.setFn_granules : (s.setFn f v).granules = s.granules := rfl
@[simp] theorem State.setFn_orderedS : (s.setFn f v).orderedS = s.orderedS := rfl
@[simp] theorem State.setFn_gradeS : (s.setFn f v).gradeS = s.gradeS := rfl
@[simp] theorem State.setFn_reserveGib : (s.setFn f v).reserveGib = s.reserveGib := rfl
@[simp] theorem State.setFn_loads : (s.setFn f v).loads = s.loads := rfl
@[simp] theorem State.setFn_mons : (s.setFn f v).mons = s.mons := rfl
@[simp] theorem State.setFn_subst : (s.setFn f v).subst = s.subst := rfl
@[simp] theorem State.setFn_detours : (s.setFn f v).detours = s.detours := rfl
@[simp] theorem State.setFn_ports : (s.setFn f v).ports = s.ports := rfl
@[simp] theorem State.setFn_fabric : (s.setFn f v).fabric = s.fabric := rfl
@[simp] theorem State.setFn_lk : (s.setFn f v).lk = s.lk := rfl
@[simp] theorem State.setFn_entropy : (s.setFn f v).entropy = s.entropy := rfl
@[simp] theorem State.setFn_power : (s.setFn f v).power = s.power := rfl
@[simp] theorem State.setFn_boot : (s.setFn f v).boot = s.boot := rfl
@[simp] theorem State.setFn_nv : (s.setFn f v).nv = s.nv := rfl
@[simp] theorem State.setFn_crossLend : (s.setFn f v).crossLend = s.crossLend := rfl
@[simp] theorem State.setFn_loops : (s.setFn f v).loops = s.loops := rfl
@[simp] theorem State.setFn_streams : (s.setFn f v).streams = s.streams := rfl
@[simp] theorem State.setFn_ushd : (s.setFn f v).ushd = s.ushd := rfl
@[simp] theorem State.setFn_replSets : (s.setFn f v).replSets = s.replSets := rfl
@[simp] theorem State.setFn_ugrp : (s.setFn f v).ugrp = s.ugrp := rfl
@[simp] theorem State.setFn_canalErr : (s.setFn f v).canalErr = s.canalErr := rfl
end

/-! ### State.setWharf -/

section
variable (s : State) (g : Nat) (v : Wharf)
@[simp] theorem State.setWharf_pending : (s.setWharf g v).pending = s.pending := rfl
@[simp] theorem State.setWharf_now : (s.setWharf g v).now = s.now := rfl
@[simp] theorem State.setWharf_free : (s.setWharf g v).free = s.free := rfl
@[simp] theorem State.setWharf_dies : (s.setWharf g v).dies = s.dies := rfl
@[simp] theorem State.setWharf_tiles : (s.setWharf g v).tiles = s.tiles := rfl
@[simp] theorem State.setWharf_routers : (s.setWharf g v).routers = s.routers := rfl
@[simp] theorem State.setWharf_ctxs : (s.setWharf g v).ctxs = s.ctxs := rfl
@[simp] theorem State.setWharf_tenants : (s.setWharf g v).tenants = s.tenants := rfl
@[simp] theorem State.setWharf_fns : (s.setWharf g v).fns = s.fns := rfl
@[simp] theorem State.setWharf_hostMem : (s.setWharf g v).hostMem = s.hostMem := rfl
@[simp] theorem State.setWharf_vfs : (s.setWharf g v).vfs = s.vfs := rfl
@[simp] theorem State.setWharf_hold : (s.setWharf g v).hold = s.hold := rfl
@[simp] theorem State.setWharf_wharves : (s.setWharf g v).wharves = s.wharves.set g v := rfl
@[simp] theorem State.setWharf_egress : (s.setWharf g v).egress = s.egress := rfl
@[simp] theorem State.setWharf_transit : (s.setWharf g v).transit = s.transit := rfl
@[simp] theorem State.setWharf_holdMeta : (s.setWharf g v).holdMeta = s.holdMeta := rfl
@[simp] theorem State.setWharf_stackTbl : (s.setWharf g v).stackTbl = s.stackTbl := rfl
@[simp] theorem State.setWharf_quadrants : (s.setWharf g v).quadrants = s.quadrants := rfl
@[simp] theorem State.setWharf_granules : (s.setWharf g v).granules = s.granules := rfl
@[simp] theorem State.setWharf_orderedS : (s.setWharf g v).orderedS = s.orderedS := rfl
@[simp] theorem State.setWharf_gradeS : (s.setWharf g v).gradeS = s.gradeS := rfl
@[simp] theorem State.setWharf_reserveGib : (s.setWharf g v).reserveGib = s.reserveGib := rfl
@[simp] theorem State.setWharf_loads : (s.setWharf g v).loads = s.loads := rfl
@[simp] theorem State.setWharf_mons : (s.setWharf g v).mons = s.mons := rfl
@[simp] theorem State.setWharf_subst : (s.setWharf g v).subst = s.subst := rfl
@[simp] theorem State.setWharf_detours : (s.setWharf g v).detours = s.detours := rfl
@[simp] theorem State.setWharf_ports : (s.setWharf g v).ports = s.ports := rfl
@[simp] theorem State.setWharf_fabric : (s.setWharf g v).fabric = s.fabric := rfl
@[simp] theorem State.setWharf_lk : (s.setWharf g v).lk = s.lk := rfl
@[simp] theorem State.setWharf_entropy : (s.setWharf g v).entropy = s.entropy := rfl
@[simp] theorem State.setWharf_power : (s.setWharf g v).power = s.power := rfl
@[simp] theorem State.setWharf_boot : (s.setWharf g v).boot = s.boot := rfl
@[simp] theorem State.setWharf_nv : (s.setWharf g v).nv = s.nv := rfl
@[simp] theorem State.setWharf_crossLend : (s.setWharf g v).crossLend = s.crossLend := rfl
@[simp] theorem State.setWharf_loops : (s.setWharf g v).loops = s.loops := rfl
@[simp] theorem State.setWharf_streams : (s.setWharf g v).streams = s.streams := rfl
@[simp] theorem State.setWharf_ushd : (s.setWharf g v).ushd = s.ushd := rfl
@[simp] theorem State.setWharf_replSets : (s.setWharf g v).replSets = s.replSets := rfl
@[simp] theorem State.setWharf_ugrp : (s.setWharf g v).ugrp = s.ugrp := rfl
@[simp] theorem State.setWharf_canalErr : (s.setWharf g v).canalErr = s.canalErr := rfl
end

/-! ### State.setStack -/

section
variable (s : State) (k : Nat) (v : Stack)
@[simp] theorem State.setStack_pending : (s.setStack k v).pending = s.pending := rfl
@[simp] theorem State.setStack_now : (s.setStack k v).now = s.now := rfl
@[simp] theorem State.setStack_free : (s.setStack k v).free = s.free := rfl
@[simp] theorem State.setStack_dies : (s.setStack k v).dies = s.dies := rfl
@[simp] theorem State.setStack_tiles : (s.setStack k v).tiles = s.tiles := rfl
@[simp] theorem State.setStack_routers : (s.setStack k v).routers = s.routers := rfl
@[simp] theorem State.setStack_ctxs : (s.setStack k v).ctxs = s.ctxs := rfl
@[simp] theorem State.setStack_tenants : (s.setStack k v).tenants = s.tenants := rfl
@[simp] theorem State.setStack_fns : (s.setStack k v).fns = s.fns := rfl
@[simp] theorem State.setStack_hostMem : (s.setStack k v).hostMem = s.hostMem := rfl
@[simp] theorem State.setStack_vfs : (s.setStack k v).vfs = s.vfs := rfl
@[simp] theorem State.setStack_hold : (s.setStack k v).hold = s.hold := rfl
@[simp] theorem State.setStack_wharves : (s.setStack k v).wharves = s.wharves := rfl
@[simp] theorem State.setStack_egress : (s.setStack k v).egress = s.egress := rfl
@[simp] theorem State.setStack_transit : (s.setStack k v).transit = s.transit := rfl
@[simp] theorem State.setStack_holdMeta : (s.setStack k v).holdMeta = s.holdMeta := rfl
@[simp] theorem State.setStack_stackTbl : (s.setStack k v).stackTbl = s.stackTbl.set k v := rfl
@[simp] theorem State.setStack_quadrants : (s.setStack k v).quadrants = s.quadrants := rfl
@[simp] theorem State.setStack_granules : (s.setStack k v).granules = s.granules := rfl
@[simp] theorem State.setStack_orderedS : (s.setStack k v).orderedS = s.orderedS := rfl
@[simp] theorem State.setStack_gradeS : (s.setStack k v).gradeS = s.gradeS := rfl
@[simp] theorem State.setStack_reserveGib : (s.setStack k v).reserveGib = s.reserveGib := rfl
@[simp] theorem State.setStack_loads : (s.setStack k v).loads = s.loads := rfl
@[simp] theorem State.setStack_mons : (s.setStack k v).mons = s.mons := rfl
@[simp] theorem State.setStack_subst : (s.setStack k v).subst = s.subst := rfl
@[simp] theorem State.setStack_detours : (s.setStack k v).detours = s.detours := rfl
@[simp] theorem State.setStack_ports : (s.setStack k v).ports = s.ports := rfl
@[simp] theorem State.setStack_fabric : (s.setStack k v).fabric = s.fabric := rfl
@[simp] theorem State.setStack_lk : (s.setStack k v).lk = s.lk := rfl
@[simp] theorem State.setStack_entropy : (s.setStack k v).entropy = s.entropy := rfl
@[simp] theorem State.setStack_power : (s.setStack k v).power = s.power := rfl
@[simp] theorem State.setStack_boot : (s.setStack k v).boot = s.boot := rfl
@[simp] theorem State.setStack_nv : (s.setStack k v).nv = s.nv := rfl
@[simp] theorem State.setStack_crossLend : (s.setStack k v).crossLend = s.crossLend := rfl
@[simp] theorem State.setStack_loops : (s.setStack k v).loops = s.loops := rfl
@[simp] theorem State.setStack_streams : (s.setStack k v).streams = s.streams := rfl
@[simp] theorem State.setStack_ushd : (s.setStack k v).ushd = s.ushd := rfl
@[simp] theorem State.setStack_replSets : (s.setStack k v).replSets = s.replSets := rfl
@[simp] theorem State.setStack_ugrp : (s.setStack k v).ugrp = s.ugrp := rfl
@[simp] theorem State.setStack_canalErr : (s.setStack k v).canalErr = s.canalErr := rfl
end

/-! ### State.setPort -/

section
variable (s : State) (p : Nat) (v : GPort)
@[simp] theorem State.setPort_pending : (s.setPort p v).pending = s.pending := rfl
@[simp] theorem State.setPort_now : (s.setPort p v).now = s.now := rfl
@[simp] theorem State.setPort_free : (s.setPort p v).free = s.free := rfl
@[simp] theorem State.setPort_dies : (s.setPort p v).dies = s.dies := rfl
@[simp] theorem State.setPort_tiles : (s.setPort p v).tiles = s.tiles := rfl
@[simp] theorem State.setPort_routers : (s.setPort p v).routers = s.routers := rfl
@[simp] theorem State.setPort_ctxs : (s.setPort p v).ctxs = s.ctxs := rfl
@[simp] theorem State.setPort_tenants : (s.setPort p v).tenants = s.tenants := rfl
@[simp] theorem State.setPort_fns : (s.setPort p v).fns = s.fns := rfl
@[simp] theorem State.setPort_hostMem : (s.setPort p v).hostMem = s.hostMem := rfl
@[simp] theorem State.setPort_vfs : (s.setPort p v).vfs = s.vfs := rfl
@[simp] theorem State.setPort_hold : (s.setPort p v).hold = s.hold := rfl
@[simp] theorem State.setPort_wharves : (s.setPort p v).wharves = s.wharves := rfl
@[simp] theorem State.setPort_egress : (s.setPort p v).egress = s.egress := rfl
@[simp] theorem State.setPort_transit : (s.setPort p v).transit = s.transit := rfl
@[simp] theorem State.setPort_holdMeta : (s.setPort p v).holdMeta = s.holdMeta := rfl
@[simp] theorem State.setPort_stackTbl : (s.setPort p v).stackTbl = s.stackTbl := rfl
@[simp] theorem State.setPort_quadrants : (s.setPort p v).quadrants = s.quadrants := rfl
@[simp] theorem State.setPort_granules : (s.setPort p v).granules = s.granules := rfl
@[simp] theorem State.setPort_orderedS : (s.setPort p v).orderedS = s.orderedS := rfl
@[simp] theorem State.setPort_gradeS : (s.setPort p v).gradeS = s.gradeS := rfl
@[simp] theorem State.setPort_reserveGib : (s.setPort p v).reserveGib = s.reserveGib := rfl
@[simp] theorem State.setPort_loads : (s.setPort p v).loads = s.loads := rfl
@[simp] theorem State.setPort_mons : (s.setPort p v).mons = s.mons := rfl
@[simp] theorem State.setPort_subst : (s.setPort p v).subst = s.subst := rfl
@[simp] theorem State.setPort_detours : (s.setPort p v).detours = s.detours := rfl
@[simp] theorem State.setPort_ports : (s.setPort p v).ports = s.ports.set p v := rfl
@[simp] theorem State.setPort_fabric : (s.setPort p v).fabric = s.fabric := rfl
@[simp] theorem State.setPort_lk : (s.setPort p v).lk = s.lk := rfl
@[simp] theorem State.setPort_entropy : (s.setPort p v).entropy = s.entropy := rfl
@[simp] theorem State.setPort_power : (s.setPort p v).power = s.power := rfl
@[simp] theorem State.setPort_boot : (s.setPort p v).boot = s.boot := rfl
@[simp] theorem State.setPort_nv : (s.setPort p v).nv = s.nv := rfl
@[simp] theorem State.setPort_crossLend : (s.setPort p v).crossLend = s.crossLend := rfl
@[simp] theorem State.setPort_loops : (s.setPort p v).loops = s.loops := rfl
@[simp] theorem State.setPort_streams : (s.setPort p v).streams = s.streams := rfl
@[simp] theorem State.setPort_ushd : (s.setPort p v).ushd = s.ushd := rfl
@[simp] theorem State.setPort_replSets : (s.setPort p v).replSets = s.replSets := rfl
@[simp] theorem State.setPort_ugrp : (s.setPort p v).ugrp = s.ugrp := rfl
@[simp] theorem State.setPort_canalErr : (s.setPort p v).canalErr = s.canalErr := rfl
end

/-! ### State.setDie -/

section
variable (s : State) (d : Nat) (v : DieClk)
@[simp] theorem State.setDie_pending : (s.setDie d v).pending = s.pending := rfl
@[simp] theorem State.setDie_now : (s.setDie d v).now = s.now := rfl
@[simp] theorem State.setDie_free : (s.setDie d v).free = s.free := rfl
@[simp] theorem State.setDie_dies : (s.setDie d v).dies = s.dies.set d v := rfl
@[simp] theorem State.setDie_tiles : (s.setDie d v).tiles = s.tiles := rfl
@[simp] theorem State.setDie_routers : (s.setDie d v).routers = s.routers := rfl
@[simp] theorem State.setDie_ctxs : (s.setDie d v).ctxs = s.ctxs := rfl
@[simp] theorem State.setDie_tenants : (s.setDie d v).tenants = s.tenants := rfl
@[simp] theorem State.setDie_fns : (s.setDie d v).fns = s.fns := rfl
@[simp] theorem State.setDie_hostMem : (s.setDie d v).hostMem = s.hostMem := rfl
@[simp] theorem State.setDie_vfs : (s.setDie d v).vfs = s.vfs := rfl
@[simp] theorem State.setDie_hold : (s.setDie d v).hold = s.hold := rfl
@[simp] theorem State.setDie_wharves : (s.setDie d v).wharves = s.wharves := rfl
@[simp] theorem State.setDie_egress : (s.setDie d v).egress = s.egress := rfl
@[simp] theorem State.setDie_transit : (s.setDie d v).transit = s.transit := rfl
@[simp] theorem State.setDie_holdMeta : (s.setDie d v).holdMeta = s.holdMeta := rfl
@[simp] theorem State.setDie_stackTbl : (s.setDie d v).stackTbl = s.stackTbl := rfl
@[simp] theorem State.setDie_quadrants : (s.setDie d v).quadrants = s.quadrants := rfl
@[simp] theorem State.setDie_granules : (s.setDie d v).granules = s.granules := rfl
@[simp] theorem State.setDie_orderedS : (s.setDie d v).orderedS = s.orderedS := rfl
@[simp] theorem State.setDie_gradeS : (s.setDie d v).gradeS = s.gradeS := rfl
@[simp] theorem State.setDie_reserveGib : (s.setDie d v).reserveGib = s.reserveGib := rfl
@[simp] theorem State.setDie_loads : (s.setDie d v).loads = s.loads := rfl
@[simp] theorem State.setDie_mons : (s.setDie d v).mons = s.mons := rfl
@[simp] theorem State.setDie_subst : (s.setDie d v).subst = s.subst := rfl
@[simp] theorem State.setDie_detours : (s.setDie d v).detours = s.detours := rfl
@[simp] theorem State.setDie_ports : (s.setDie d v).ports = s.ports := rfl
@[simp] theorem State.setDie_fabric : (s.setDie d v).fabric = s.fabric := rfl
@[simp] theorem State.setDie_lk : (s.setDie d v).lk = s.lk := rfl
@[simp] theorem State.setDie_entropy : (s.setDie d v).entropy = s.entropy := rfl
@[simp] theorem State.setDie_power : (s.setDie d v).power = s.power := rfl
@[simp] theorem State.setDie_boot : (s.setDie d v).boot = s.boot := rfl
@[simp] theorem State.setDie_nv : (s.setDie d v).nv = s.nv := rfl
@[simp] theorem State.setDie_crossLend : (s.setDie d v).crossLend = s.crossLend := rfl
@[simp] theorem State.setDie_loops : (s.setDie d v).loops = s.loops := rfl
@[simp] theorem State.setDie_streams : (s.setDie d v).streams = s.streams := rfl
@[simp] theorem State.setDie_ushd : (s.setDie d v).ushd = s.ushd := rfl
@[simp] theorem State.setDie_replSets : (s.setDie d v).replSets = s.replSets := rfl
@[simp] theorem State.setDie_ugrp : (s.setDie d v).ugrp = s.ugrp := rfl
@[simp] theorem State.setDie_canalErr : (s.setDie d v).canalErr = s.canalErr := rfl
end

/-! ### State.setLoop -/

section
variable (s : State) (l : Nat) (v : LoopPort)
@[simp] theorem State.setLoop_pending : (s.setLoop l v).pending = s.pending := rfl
@[simp] theorem State.setLoop_now : (s.setLoop l v).now = s.now := rfl
@[simp] theorem State.setLoop_free : (s.setLoop l v).free = s.free := rfl
@[simp] theorem State.setLoop_dies : (s.setLoop l v).dies = s.dies := rfl
@[simp] theorem State.setLoop_tiles : (s.setLoop l v).tiles = s.tiles := rfl
@[simp] theorem State.setLoop_routers : (s.setLoop l v).routers = s.routers := rfl
@[simp] theorem State.setLoop_ctxs : (s.setLoop l v).ctxs = s.ctxs := rfl
@[simp] theorem State.setLoop_tenants : (s.setLoop l v).tenants = s.tenants := rfl
@[simp] theorem State.setLoop_fns : (s.setLoop l v).fns = s.fns := rfl
@[simp] theorem State.setLoop_hostMem : (s.setLoop l v).hostMem = s.hostMem := rfl
@[simp] theorem State.setLoop_vfs : (s.setLoop l v).vfs = s.vfs := rfl
@[simp] theorem State.setLoop_hold : (s.setLoop l v).hold = s.hold := rfl
@[simp] theorem State.setLoop_wharves : (s.setLoop l v).wharves = s.wharves := rfl
@[simp] theorem State.setLoop_egress : (s.setLoop l v).egress = s.egress := rfl
@[simp] theorem State.setLoop_transit : (s.setLoop l v).transit = s.transit := rfl
@[simp] theorem State.setLoop_holdMeta : (s.setLoop l v).holdMeta = s.holdMeta := rfl
@[simp] theorem State.setLoop_stackTbl : (s.setLoop l v).stackTbl = s.stackTbl := rfl
@[simp] theorem State.setLoop_quadrants : (s.setLoop l v).quadrants = s.quadrants := rfl
@[simp] theorem State.setLoop_granules : (s.setLoop l v).granules = s.granules := rfl
@[simp] theorem State.setLoop_orderedS : (s.setLoop l v).orderedS = s.orderedS := rfl
@[simp] theorem State.setLoop_gradeS : (s.setLoop l v).gradeS = s.gradeS := rfl
@[simp] theorem State.setLoop_reserveGib : (s.setLoop l v).reserveGib = s.reserveGib := rfl
@[simp] theorem State.setLoop_loads : (s.setLoop l v).loads = s.loads := rfl
@[simp] theorem State.setLoop_mons : (s.setLoop l v).mons = s.mons := rfl
@[simp] theorem State.setLoop_subst : (s.setLoop l v).subst = s.subst := rfl
@[simp] theorem State.setLoop_detours : (s.setLoop l v).detours = s.detours := rfl
@[simp] theorem State.setLoop_ports : (s.setLoop l v).ports = s.ports := rfl
@[simp] theorem State.setLoop_fabric : (s.setLoop l v).fabric = s.fabric := rfl
@[simp] theorem State.setLoop_lk : (s.setLoop l v).lk = s.lk := rfl
@[simp] theorem State.setLoop_entropy : (s.setLoop l v).entropy = s.entropy := rfl
@[simp] theorem State.setLoop_power : (s.setLoop l v).power = s.power := rfl
@[simp] theorem State.setLoop_boot : (s.setLoop l v).boot = s.boot := rfl
@[simp] theorem State.setLoop_nv : (s.setLoop l v).nv = s.nv := rfl
@[simp] theorem State.setLoop_crossLend : (s.setLoop l v).crossLend = s.crossLend := rfl
@[simp] theorem State.setLoop_loops : (s.setLoop l v).loops = s.loops.set l v := rfl
@[simp] theorem State.setLoop_streams : (s.setLoop l v).streams = s.streams := rfl
@[simp] theorem State.setLoop_ushd : (s.setLoop l v).ushd = s.ushd := rfl
@[simp] theorem State.setLoop_replSets : (s.setLoop l v).replSets = s.replSets := rfl
@[simp] theorem State.setLoop_ugrp : (s.setLoop l v).ugrp = s.ugrp := rfl
@[simp] theorem State.setLoop_canalErr : (s.setLoop l v).canalErr = s.canalErr := rfl
end

/-! ### State.setStream -/

section
variable (s : State) (k : Nat) (v : LoopStream)
@[simp] theorem State.setStream_pending : (s.setStream k v).pending = s.pending := rfl
@[simp] theorem State.setStream_now : (s.setStream k v).now = s.now := rfl
@[simp] theorem State.setStream_free : (s.setStream k v).free = s.free := rfl
@[simp] theorem State.setStream_dies : (s.setStream k v).dies = s.dies := rfl
@[simp] theorem State.setStream_tiles : (s.setStream k v).tiles = s.tiles := rfl
@[simp] theorem State.setStream_routers : (s.setStream k v).routers = s.routers := rfl
@[simp] theorem State.setStream_ctxs : (s.setStream k v).ctxs = s.ctxs := rfl
@[simp] theorem State.setStream_tenants : (s.setStream k v).tenants = s.tenants := rfl
@[simp] theorem State.setStream_fns : (s.setStream k v).fns = s.fns := rfl
@[simp] theorem State.setStream_hostMem : (s.setStream k v).hostMem = s.hostMem := rfl
@[simp] theorem State.setStream_vfs : (s.setStream k v).vfs = s.vfs := rfl
@[simp] theorem State.setStream_hold : (s.setStream k v).hold = s.hold := rfl
@[simp] theorem State.setStream_wharves : (s.setStream k v).wharves = s.wharves := rfl
@[simp] theorem State.setStream_egress : (s.setStream k v).egress = s.egress := rfl
@[simp] theorem State.setStream_transit : (s.setStream k v).transit = s.transit := rfl
@[simp] theorem State.setStream_holdMeta : (s.setStream k v).holdMeta = s.holdMeta := rfl
@[simp] theorem State.setStream_stackTbl : (s.setStream k v).stackTbl = s.stackTbl := rfl
@[simp] theorem State.setStream_quadrants : (s.setStream k v).quadrants = s.quadrants := rfl
@[simp] theorem State.setStream_granules : (s.setStream k v).granules = s.granules := rfl
@[simp] theorem State.setStream_orderedS : (s.setStream k v).orderedS = s.orderedS := rfl
@[simp] theorem State.setStream_gradeS : (s.setStream k v).gradeS = s.gradeS := rfl
@[simp] theorem State.setStream_reserveGib : (s.setStream k v).reserveGib = s.reserveGib := rfl
@[simp] theorem State.setStream_loads : (s.setStream k v).loads = s.loads := rfl
@[simp] theorem State.setStream_mons : (s.setStream k v).mons = s.mons := rfl
@[simp] theorem State.setStream_subst : (s.setStream k v).subst = s.subst := rfl
@[simp] theorem State.setStream_detours : (s.setStream k v).detours = s.detours := rfl
@[simp] theorem State.setStream_ports : (s.setStream k v).ports = s.ports := rfl
@[simp] theorem State.setStream_fabric : (s.setStream k v).fabric = s.fabric := rfl
@[simp] theorem State.setStream_lk : (s.setStream k v).lk = s.lk := rfl
@[simp] theorem State.setStream_entropy : (s.setStream k v).entropy = s.entropy := rfl
@[simp] theorem State.setStream_power : (s.setStream k v).power = s.power := rfl
@[simp] theorem State.setStream_boot : (s.setStream k v).boot = s.boot := rfl
@[simp] theorem State.setStream_nv : (s.setStream k v).nv = s.nv := rfl
@[simp] theorem State.setStream_crossLend : (s.setStream k v).crossLend = s.crossLend := rfl
@[simp] theorem State.setStream_loops : (s.setStream k v).loops = s.loops := rfl
@[simp] theorem State.setStream_streams : (s.setStream k v).streams = s.streams.set k v := rfl
@[simp] theorem State.setStream_ushd : (s.setStream k v).ushd = s.ushd := rfl
@[simp] theorem State.setStream_replSets : (s.setStream k v).replSets = s.replSets := rfl
@[simp] theorem State.setStream_ugrp : (s.setStream k v).ugrp = s.ugrp := rfl
@[simp] theorem State.setStream_canalErr : (s.setStream k v).canalErr = s.canalErr := rfl
end

/-! ### State.modEntropy -/

section
variable (s : State) (f : Entropy → Entropy)
@[simp] theorem State.modEntropy_pending : (s.modEntropy f).pending = s.pending := rfl
@[simp] theorem State.modEntropy_now : (s.modEntropy f).now = s.now := rfl
@[simp] theorem State.modEntropy_free : (s.modEntropy f).free = s.free := rfl
@[simp] theorem State.modEntropy_dies : (s.modEntropy f).dies = s.dies := rfl
@[simp] theorem State.modEntropy_tiles : (s.modEntropy f).tiles = s.tiles := rfl
@[simp] theorem State.modEntropy_routers : (s.modEntropy f).routers = s.routers := rfl
@[simp] theorem State.modEntropy_ctxs : (s.modEntropy f).ctxs = s.ctxs := rfl
@[simp] theorem State.modEntropy_tenants : (s.modEntropy f).tenants = s.tenants := rfl
@[simp] theorem State.modEntropy_fns : (s.modEntropy f).fns = s.fns := rfl
@[simp] theorem State.modEntropy_hostMem : (s.modEntropy f).hostMem = s.hostMem := rfl
@[simp] theorem State.modEntropy_vfs : (s.modEntropy f).vfs = s.vfs := rfl
@[simp] theorem State.modEntropy_hold : (s.modEntropy f).hold = s.hold := rfl
@[simp] theorem State.modEntropy_wharves : (s.modEntropy f).wharves = s.wharves := rfl
@[simp] theorem State.modEntropy_egress : (s.modEntropy f).egress = s.egress := rfl
@[simp] theorem State.modEntropy_transit : (s.modEntropy f).transit = s.transit := rfl
@[simp] theorem State.modEntropy_holdMeta : (s.modEntropy f).holdMeta = s.holdMeta := rfl
@[simp] theorem State.modEntropy_stackTbl : (s.modEntropy f).stackTbl = s.stackTbl := rfl
@[simp] theorem State.modEntropy_quadrants : (s.modEntropy f).quadrants = s.quadrants := rfl
@[simp] theorem State.modEntropy_granules : (s.modEntropy f).granules = s.granules := rfl
@[simp] theorem State.modEntropy_orderedS : (s.modEntropy f).orderedS = s.orderedS := rfl
@[simp] theorem State.modEntropy_gradeS : (s.modEntropy f).gradeS = s.gradeS := rfl
@[simp] theorem State.modEntropy_reserveGib : (s.modEntropy f).reserveGib = s.reserveGib := rfl
@[simp] theorem State.modEntropy_loads : (s.modEntropy f).loads = s.loads := rfl
@[simp] theorem State.modEntropy_mons : (s.modEntropy f).mons = s.mons := rfl
@[simp] theorem State.modEntropy_subst : (s.modEntropy f).subst = s.subst := rfl
@[simp] theorem State.modEntropy_detours : (s.modEntropy f).detours = s.detours := rfl
@[simp] theorem State.modEntropy_ports : (s.modEntropy f).ports = s.ports := rfl
@[simp] theorem State.modEntropy_fabric : (s.modEntropy f).fabric = s.fabric := rfl
@[simp] theorem State.modEntropy_lk : (s.modEntropy f).lk = s.lk := rfl
@[simp] theorem State.modEntropy_entropy : (s.modEntropy f).entropy = f s.entropy := rfl
@[simp] theorem State.modEntropy_power : (s.modEntropy f).power = s.power := rfl
@[simp] theorem State.modEntropy_boot : (s.modEntropy f).boot = s.boot := rfl
@[simp] theorem State.modEntropy_nv : (s.modEntropy f).nv = s.nv := rfl
@[simp] theorem State.modEntropy_crossLend : (s.modEntropy f).crossLend = s.crossLend := rfl
@[simp] theorem State.modEntropy_loops : (s.modEntropy f).loops = s.loops := rfl
@[simp] theorem State.modEntropy_streams : (s.modEntropy f).streams = s.streams := rfl
@[simp] theorem State.modEntropy_ushd : (s.modEntropy f).ushd = s.ushd := rfl
@[simp] theorem State.modEntropy_replSets : (s.modEntropy f).replSets = s.replSets := rfl
@[simp] theorem State.modEntropy_ugrp : (s.modEntropy f).ugrp = s.ugrp := rfl
@[simp] theorem State.modEntropy_canalErr : (s.modEntropy f).canalErr = s.canalErr := rfl
end

/-! ### State.modPower -/

section
variable (s : State) (f : Power → Power)
@[simp] theorem State.modPower_pending : (s.modPower f).pending = s.pending := rfl
@[simp] theorem State.modPower_now : (s.modPower f).now = s.now := rfl
@[simp] theorem State.modPower_free : (s.modPower f).free = s.free := rfl
@[simp] theorem State.modPower_dies : (s.modPower f).dies = s.dies := rfl
@[simp] theorem State.modPower_tiles : (s.modPower f).tiles = s.tiles := rfl
@[simp] theorem State.modPower_routers : (s.modPower f).routers = s.routers := rfl
@[simp] theorem State.modPower_ctxs : (s.modPower f).ctxs = s.ctxs := rfl
@[simp] theorem State.modPower_tenants : (s.modPower f).tenants = s.tenants := rfl
@[simp] theorem State.modPower_fns : (s.modPower f).fns = s.fns := rfl
@[simp] theorem State.modPower_hostMem : (s.modPower f).hostMem = s.hostMem := rfl
@[simp] theorem State.modPower_vfs : (s.modPower f).vfs = s.vfs := rfl
@[simp] theorem State.modPower_hold : (s.modPower f).hold = s.hold := rfl
@[simp] theorem State.modPower_wharves : (s.modPower f).wharves = s.wharves := rfl
@[simp] theorem State.modPower_egress : (s.modPower f).egress = s.egress := rfl
@[simp] theorem State.modPower_transit : (s.modPower f).transit = s.transit := rfl
@[simp] theorem State.modPower_holdMeta : (s.modPower f).holdMeta = s.holdMeta := rfl
@[simp] theorem State.modPower_stackTbl : (s.modPower f).stackTbl = s.stackTbl := rfl
@[simp] theorem State.modPower_quadrants : (s.modPower f).quadrants = s.quadrants := rfl
@[simp] theorem State.modPower_granules : (s.modPower f).granules = s.granules := rfl
@[simp] theorem State.modPower_orderedS : (s.modPower f).orderedS = s.orderedS := rfl
@[simp] theorem State.modPower_gradeS : (s.modPower f).gradeS = s.gradeS := rfl
@[simp] theorem State.modPower_reserveGib : (s.modPower f).reserveGib = s.reserveGib := rfl
@[simp] theorem State.modPower_loads : (s.modPower f).loads = s.loads := rfl
@[simp] theorem State.modPower_mons : (s.modPower f).mons = s.mons := rfl
@[simp] theorem State.modPower_subst : (s.modPower f).subst = s.subst := rfl
@[simp] theorem State.modPower_detours : (s.modPower f).detours = s.detours := rfl
@[simp] theorem State.modPower_ports : (s.modPower f).ports = s.ports := rfl
@[simp] theorem State.modPower_fabric : (s.modPower f).fabric = s.fabric := rfl
@[simp] theorem State.modPower_lk : (s.modPower f).lk = s.lk := rfl
@[simp] theorem State.modPower_entropy : (s.modPower f).entropy = s.entropy := rfl
@[simp] theorem State.modPower_power : (s.modPower f).power = f s.power := rfl
@[simp] theorem State.modPower_boot : (s.modPower f).boot = s.boot := rfl
@[simp] theorem State.modPower_nv : (s.modPower f).nv = s.nv := rfl
@[simp] theorem State.modPower_crossLend : (s.modPower f).crossLend = s.crossLend := rfl
@[simp] theorem State.modPower_loops : (s.modPower f).loops = s.loops := rfl
@[simp] theorem State.modPower_streams : (s.modPower f).streams = s.streams := rfl
@[simp] theorem State.modPower_ushd : (s.modPower f).ushd = s.ushd := rfl
@[simp] theorem State.modPower_replSets : (s.modPower f).replSets = s.replSets := rfl
@[simp] theorem State.modPower_ugrp : (s.modPower f).ugrp = s.ugrp := rfl
@[simp] theorem State.modPower_canalErr : (s.modPower f).canalErr = s.canalErr := rfl
end

/-! ### State.setUpdate -/

section
variable (s : State) (u : Option FwUpdate)
@[simp] theorem State.setUpdate_pending : (s.setUpdate u).pending = s.pending := rfl
@[simp] theorem State.setUpdate_now : (s.setUpdate u).now = s.now := rfl
@[simp] theorem State.setUpdate_free : (s.setUpdate u).free = s.free := rfl
@[simp] theorem State.setUpdate_dies : (s.setUpdate u).dies = s.dies := rfl
@[simp] theorem State.setUpdate_tiles : (s.setUpdate u).tiles = s.tiles := rfl
@[simp] theorem State.setUpdate_routers : (s.setUpdate u).routers = s.routers := rfl
@[simp] theorem State.setUpdate_ctxs : (s.setUpdate u).ctxs = s.ctxs := rfl
@[simp] theorem State.setUpdate_tenants : (s.setUpdate u).tenants = s.tenants := rfl
@[simp] theorem State.setUpdate_fns : (s.setUpdate u).fns = s.fns := rfl
@[simp] theorem State.setUpdate_hostMem : (s.setUpdate u).hostMem = s.hostMem := rfl
@[simp] theorem State.setUpdate_vfs : (s.setUpdate u).vfs = s.vfs := rfl
@[simp] theorem State.setUpdate_hold : (s.setUpdate u).hold = s.hold := rfl
@[simp] theorem State.setUpdate_wharves : (s.setUpdate u).wharves = s.wharves := rfl
@[simp] theorem State.setUpdate_egress : (s.setUpdate u).egress = s.egress := rfl
@[simp] theorem State.setUpdate_transit : (s.setUpdate u).transit = s.transit := rfl
@[simp] theorem State.setUpdate_holdMeta : (s.setUpdate u).holdMeta = s.holdMeta := rfl
@[simp] theorem State.setUpdate_stackTbl : (s.setUpdate u).stackTbl = s.stackTbl := rfl
@[simp] theorem State.setUpdate_quadrants : (s.setUpdate u).quadrants = s.quadrants := rfl
@[simp] theorem State.setUpdate_granules : (s.setUpdate u).granules = s.granules := rfl
@[simp] theorem State.setUpdate_orderedS : (s.setUpdate u).orderedS = s.orderedS := rfl
@[simp] theorem State.setUpdate_gradeS : (s.setUpdate u).gradeS = s.gradeS := rfl
@[simp] theorem State.setUpdate_reserveGib : (s.setUpdate u).reserveGib = s.reserveGib := rfl
@[simp] theorem State.setUpdate_loads : (s.setUpdate u).loads = s.loads := rfl
@[simp] theorem State.setUpdate_mons : (s.setUpdate u).mons = s.mons := rfl
@[simp] theorem State.setUpdate_subst : (s.setUpdate u).subst = s.subst := rfl
@[simp] theorem State.setUpdate_detours : (s.setUpdate u).detours = s.detours := rfl
@[simp] theorem State.setUpdate_ports : (s.setUpdate u).ports = s.ports := rfl
@[simp] theorem State.setUpdate_fabric : (s.setUpdate u).fabric = s.fabric := rfl
@[simp] theorem State.setUpdate_lk : (s.setUpdate u).lk = s.lk := rfl
@[simp] theorem State.setUpdate_entropy : (s.setUpdate u).entropy = s.entropy := rfl
@[simp] theorem State.setUpdate_power : (s.setUpdate u).power = s.power := rfl
@[simp] theorem State.setUpdate_boot : (s.setUpdate u).boot = { s.boot with update := u } := rfl
@[simp] theorem State.setUpdate_nv : (s.setUpdate u).nv = s.nv := rfl
@[simp] theorem State.setUpdate_crossLend : (s.setUpdate u).crossLend = s.crossLend := rfl
@[simp] theorem State.setUpdate_loops : (s.setUpdate u).loops = s.loops := rfl
@[simp] theorem State.setUpdate_streams : (s.setUpdate u).streams = s.streams := rfl
@[simp] theorem State.setUpdate_ushd : (s.setUpdate u).ushd = s.ushd := rfl
@[simp] theorem State.setUpdate_replSets : (s.setUpdate u).replSets = s.replSets := rfl
@[simp] theorem State.setUpdate_ugrp : (s.setUpdate u).ugrp = s.ugrp := rfl
@[simp] theorem State.setUpdate_canalErr : (s.setUpdate u).canalErr = s.canalErr := rfl
end

/-! ### State.setBank -/

section
variable (s : State) (b : Nat) (v : Bank)
@[simp] theorem State.setBank_pending : (s.setBank b v).pending = s.pending := rfl
@[simp] theorem State.setBank_now : (s.setBank b v).now = s.now := rfl
@[simp] theorem State.setBank_free : (s.setBank b v).free = s.free := rfl
@[simp] theorem State.setBank_dies : (s.setBank b v).dies = s.dies := rfl
@[simp] theorem State.setBank_tiles : (s.setBank b v).tiles = s.tiles := rfl
@[simp] theorem State.setBank_routers : (s.setBank b v).routers = s.routers := rfl
@[simp] theorem State.setBank_ctxs : (s.setBank b v).ctxs = s.ctxs := rfl
@[simp] theorem State.setBank_tenants : (s.setBank b v).tenants = s.tenants := rfl
@[simp] theorem State.setBank_fns : (s.setBank b v).fns = s.fns := rfl
@[simp] theorem State.setBank_hostMem : (s.setBank b v).hostMem = s.hostMem := rfl
@[simp] theorem State.setBank_vfs : (s.setBank b v).vfs = s.vfs := rfl
@[simp] theorem State.setBank_hold : (s.setBank b v).hold = s.hold := rfl
@[simp] theorem State.setBank_wharves : (s.setBank b v).wharves = s.wharves := rfl
@[simp] theorem State.setBank_egress : (s.setBank b v).egress = s.egress := rfl
@[simp] theorem State.setBank_transit : (s.setBank b v).transit = s.transit := rfl
@[simp] theorem State.setBank_holdMeta : (s.setBank b v).holdMeta = s.holdMeta := rfl
@[simp] theorem State.setBank_stackTbl : (s.setBank b v).stackTbl = s.stackTbl := rfl
@[simp] theorem State.setBank_quadrants : (s.setBank b v).quadrants = s.quadrants := rfl
@[simp] theorem State.setBank_granules : (s.setBank b v).granules = s.granules := rfl
@[simp] theorem State.setBank_orderedS : (s.setBank b v).orderedS = s.orderedS := rfl
@[simp] theorem State.setBank_gradeS : (s.setBank b v).gradeS = s.gradeS := rfl
@[simp] theorem State.setBank_reserveGib : (s.setBank b v).reserveGib = s.reserveGib := rfl
@[simp] theorem State.setBank_loads : (s.setBank b v).loads = s.loads := rfl
@[simp] theorem State.setBank_mons : (s.setBank b v).mons = s.mons := rfl
@[simp] theorem State.setBank_subst : (s.setBank b v).subst = s.subst := rfl
@[simp] theorem State.setBank_detours : (s.setBank b v).detours = s.detours := rfl
@[simp] theorem State.setBank_ports : (s.setBank b v).ports = s.ports := rfl
@[simp] theorem State.setBank_fabric : (s.setBank b v).fabric = s.fabric := rfl
@[simp] theorem State.setBank_lk : (s.setBank b v).lk = s.lk := rfl
@[simp] theorem State.setBank_entropy : (s.setBank b v).entropy = s.entropy := rfl
@[simp] theorem State.setBank_power : (s.setBank b v).power = s.power := rfl
@[simp] theorem State.setBank_boot : (s.setBank b v).boot = s.boot := rfl
@[simp] theorem State.setBank_crossLend : (s.setBank b v).crossLend = s.crossLend := rfl
@[simp] theorem State.setBank_loops : (s.setBank b v).loops = s.loops := rfl
@[simp] theorem State.setBank_streams : (s.setBank b v).streams = s.streams := rfl
@[simp] theorem State.setBank_ushd : (s.setBank b v).ushd = s.ushd := rfl
@[simp] theorem State.setBank_replSets : (s.setBank b v).replSets = s.replSets := rfl
@[simp] theorem State.setBank_ugrp : (s.setBank b v).ugrp = s.ugrp := rfl
@[simp] theorem State.setBank_canalErr : (s.setBank b v).canalErr = s.canalErr := rfl
end

/-! ### Updates through a function -/

@[simp] theorem State.modTile_eq (s : State) (t : Nat) (f : Tile → Tile) : s.modTile t f = s.setTile t (f (s.tile t)) := rfl
@[simp] theorem State.modCtx_eq (s : State) (c : Nat) (f : Ctx → Ctx) : s.modCtx c f = s.setCtx c (f (s.ctx c)) := rfl
@[simp] theorem State.modTenant_eq (s : State) (n : Nat) (f : Tenant → Tenant) : s.modTenant n f = s.setTenant n (f (s.tenant n)) := rfl
@[simp] theorem State.modFn_eq (s : State) (k : Nat) (f : Fn → Fn) : s.modFn k f = s.setFn k (f (s.fn k)) := rfl
@[simp] theorem State.modWharf_eq (s : State) (g : Nat) (f : Wharf → Wharf) : s.modWharf g f = s.setWharf g (f (s.wharf g)) := rfl
@[simp] theorem State.modStack_eq (s : State) (k : Nat) (f : Stack → Stack) : s.modStack k f = s.setStack k (f (s.stack k)) := rfl
@[simp] theorem State.modPort_eq (s : State) (p : Nat) (f : GPort → GPort) : s.modPort p f = s.setPort p (f (s.port p)) := rfl
@[simp] theorem State.modLoop_eq (s : State) (l : Nat) (f : LoopPort → LoopPort) : s.modLoop l f = s.setLoop l (f (s.loop l)) := rfl
@[simp] theorem State.modStream_eq (s : State) (k : Nat) (f : LoopStream → LoopStream) :
    s.modStream k f = s.setStream k (f (s.loopStream k)) := rfl

end Sys2Proof.Machine
end

