-- ==== Sys2Proof/Laws/Tables.lean ====
section
/-! SUPPORT. Finite tables and byte memories: reads after writes, what a write leaves alone, and the canonical form that every
memory operation keeps. -/

namespace Sys2Proof.Machine

/-! ### Tables -/

@[simp] theorem Tbl.get_set {α : Type} (d : α) (t : Tbl α) (k j : Nat) (v : α) :
    Tbl.get d (t.set k v) j = if j = k then v else Tbl.get d t j := by
  induction t with
  | nil =>
    simp only [Tbl.set, Tbl.get]
    by_cases h : k = j
    · simp [h]
    · simp [h, Ne.symm h]
  | cons p r ih =>
    obtain ⟨i, w⟩ := p
    simp only [Tbl.set]
    split
    · by_cases h : k = j
      · simp [Tbl.get, h]
      · simp [Tbl.get, h, Ne.symm h]
    · split
      · rename_i h1 h2
        subst h2
        by_cases h : k = j
        · simp [Tbl.get, h]
        · simp [Tbl.get, h, Ne.symm h]
      · rename_i h1 h2
        by_cases h : i = j
        · have : j ≠ k := by omega
          simp [Tbl.get, h, this]
        · simp [Tbl.get, h, ih]

@[simp] theorem Tbl.find_set {α : Type} (t : Tbl α) (k j : Nat) (v : α) :
    (t.set k v).find j = if j = k then some v else t.find j := by
  induction t with
  | nil =>
    simp only [Tbl.set, Tbl.find]
    by_cases h : k = j
    · simp [h]
    · simp [h, Ne.symm h]
  | cons p r ih =>
    obtain ⟨i, w⟩ := p
    simp only [Tbl.set]
    split
    · by_cases h : k = j
      · simp [Tbl.find, h]
      · simp [Tbl.find, h, Ne.symm h]
    · split
      · rename_i h1 h2
        subst h2
        by_cases h : k = j
        · simp [Tbl.find, h]
        · simp [Tbl.find, h, Ne.symm h]
      · rename_i h1 h2
        by_cases h : i = j
        · have : j ≠ k := by omega
          simp [Tbl.find, h, this]
        · simp [Tbl.find, h, ih]

@[simp] theorem Tbl.find_del {α : Type} (t : Tbl α) (k j : Nat) : (t.del k).find j = if j = k then none else t.find j := by
  induction t with
  | nil => simp [Tbl.del, Tbl.find]
  | cons p r ih =>
    obtain ⟨i, w⟩ := p
    simp only [Tbl.del] at ih ⊢
    by_cases h : i = k
    · subst h
      simp only [ne_eq, not_true_eq_false, decide_false, Bool.false_eq_true, not_false_eq_true, List.filter_cons_of_neg, ih, Tbl.find]
      by_cases hj : j = i
      · simp [hj]
      · simp [hj, Ne.symm hj]
    · simp only [ne_eq, h, not_false_eq_true, decide_true, List.filter_cons_of_pos, Tbl.find, ih]
      by_cases hj : i = j
      · subst hj
        simp [h]
      · simp [hj]

theorem Tbl.get_eq_find {α : Type} (d : α) (t : Tbl α) (k : Nat) : Tbl.get d t k = (t.find k).getD d := by
  induction t with
  | nil => rfl
  | cons p r ih =>
    obtain ⟨i, w⟩ := p
    by_cases h : i = k
    · simp [Tbl.get, Tbl.find, h]
    · simp [Tbl.get, Tbl.find, h, ih]

@[simp] theorem Tbl.get_del {α : Type} (d : α) (t : Tbl α) (k j : Nat) :
    Tbl.get d (t.del k) j = if j = k then d else Tbl.get d t j := by
  simp only [Tbl.get_eq_find, Tbl.find_del]
  split <;> simp

@[simp] theorem Tbl.get_put {α : Type} [DecidableEq α] (d : α) (t : Tbl α) (k j : Nat) (v : α) :
    Tbl.get d (Tbl.put d t k v) j = if j = k then v else Tbl.get d t j := by
  by_cases h : v = d
  · subst h
    simp [Tbl.put]
  · simp [Tbl.put, h]

@[simp] theorem Tbl.get_nil {α : Type} (d : α) (k : Nat) : Tbl.get d [] k = d := rfl
@[simp] theorem Tbl.find_nil {α : Type} (k : Nat) : Tbl.find ([] : Tbl α) k = none := rfl

/-- An entry of a table that was set is the new one or was there before. -/
theorem Tbl.mem_set {α : Type} {t : Tbl α} {k : Nat} {v : α} {p : Nat × α} (h : p ∈ t.set k v) : p = (k, v) ∨ p ∈ t := by
  induction t with
  | nil => simpa [Tbl.set] using h
  | cons q r ih =>
    obtain ⟨i, w⟩ := q
    simp only [Tbl.set] at h
    split at h
    · simpa using h
    · split at h
      · simp only [List.mem_cons] at h ⊢
        rcases h with h | h
        · exact .inl h
        · exact .inr (.inr h)
      · simp only [List.mem_cons] at h ⊢
        rcases h with h | h
        · exact .inr (.inl h)
        · rcases ih h with h | h
          · exact .inl h
          · exact .inr (.inr h)

/-- What holds of a table's default and of every listed entry holds of what it reads. -/
theorem Tbl.get_of_all {α : Type} {p : α → Prop} {d : α} {t : Tbl α} (hd : p d) (ht : ∀ q ∈ t, p q.2) (k : Nat) : p (Tbl.get d t k) := by
  induction t with
  | nil => exact hd
  | cons q r ih =>
    obtain ⟨i, w⟩ := q
    simp only [Tbl.get]
    split
    · exact ht (i, w) (by simp)
    · exact ih (fun q hq => ht q (by simp [hq]))

/-! ### Byte memories -/

/-- Writing a byte elsewhere leaves a byte as it was, in every memory. -/
theorem Mem.read_write_of_ne (m : Mem) {a k : Nat} (b : Byte) (h : k ≠ a) : (m.write a b).read k = m.read k := by
  induction m with
  | nil =>
    simp only [Mem.write, Mem.read]
    split <;> simp [Tbl.get, Ne.symm h]
  | cons p r ih =>
    obtain ⟨j, w⟩ := p
    have ih' : Tbl.get 0#8 (Mem.write r a b) k = Tbl.get 0#8 r k := ih
    simp only [Mem.write, Mem.read]
    split
    · split <;> simp [Tbl.get, Ne.symm h]
    · split
      · rename_i h1 h2
        split <;> simp [Tbl.get, ← h2, Ne.symm h]
      · simp only [Tbl.get, ih']

/-- No address below `lo` is listed in a memory that is canonical above `lo`. -/
theorem Mem.read_below {m : Mem} {lo a : Nat} (h : Mem.wfFrom lo m = true) (ha : a < lo) : m.read a = 0#8 := by
  induction m generalizing lo with
  | nil => rfl
  | cons p r ih =>
    obtain ⟨j, w⟩ := p
    simp only [Mem.wfFrom, Bool.and_eq_true, decide_eq_true_eq] at h
    have : j ≠ a := by omega
    simp only [Mem.read, Tbl.get, this, if_false]
    exact ih h.2 (by omega)

/-- In a canonical memory a byte written reads back. -/
theorem Mem.read_write_same {m : Mem} {lo : Nat} (h : Mem.wfFrom lo m = true) (a : Nat) (b : Byte) : (m.write a b).read a = b := by
  induction m generalizing lo with
  | nil =>
    simp only [Mem.write, Mem.read]
    split
    · rename_i hb; simp [Tbl.get, hb]
    · simp [Tbl.get]
  | cons p r ih =>
    obtain ⟨j, w⟩ := p
    simp only [Mem.wfFrom, Bool.and_eq_true, decide_eq_true_eq] at h
    have ih' : Tbl.get 0#8 (Mem.write r a b) a = b := ih h.2
    have hr : a < j + 1 → Tbl.get 0#8 r a = 0#8 := fun hl => Mem.read_below h.2 hl
    simp only [Mem.write, Mem.read]
    split
    · rename_i h1
      split
      · rename_i hb
        have : j ≠ a := by omega
        simp [Tbl.get, this, hb, hr (by omega)]
      · simp [Tbl.get]
    · split
      · rename_i h1 h2
        split
        · rename_i hb
          rw [hb]
          exact hr (by omega)
        · simp [Tbl.get]
      · rename_i h1 h2
        have : j ≠ a := by omega
        simp only [Tbl.get, this, if_false, ih']

theorem Mem.wfFrom_mono {m : Mem} {lo lo' : Nat} (h : Mem.wfFrom lo m = true) (hl : lo' ≤ lo) : Mem.wfFrom lo' m = true := by
  cases m with
  | nil => rfl
  | cons p r =>
    obtain ⟨j, w⟩ := p
    simp only [Mem.wfFrom, Bool.and_eq_true, decide_eq_true_eq] at h ⊢
    exact ⟨⟨by omega, h.1.2⟩, h.2⟩

theorem Mem.wfFrom_write {m : Mem} {lo a : Nat} (h : Mem.wfFrom lo m = true) (ha : lo ≤ a) (b : Byte) :
    Mem.wfFrom lo (m.write a b) = true := by
  induction m generalizing lo with
  | nil =>
    simp only [Mem.write]
    split
    · rfl
    · rename_i hb
      simp [Mem.wfFrom, ha, hb]
  | cons p r ih =>
    obtain ⟨j, w⟩ := p
    have h' := h
    simp only [Mem.wfFrom, Bool.and_eq_true, decide_eq_true_eq] at h
    simp only [Mem.write]
    split
    · rename_i h1
      split
      · exact h'
      · rename_i hb
        simp only [Mem.wfFrom, Bool.and_eq_true, decide_eq_true_eq]
        exact ⟨⟨ha, hb⟩, ⟨by omega, h.1.2⟩, h.2⟩
    · split
      · rename_i h1 h2
        split
        · exact Mem.wfFrom_mono h.2 (by omega)
        · rename_i hb
          simp only [Mem.wfFrom, Bool.and_eq_true, decide_eq_true_eq]
          exact ⟨⟨ha, hb⟩, by rw [h2]; exact h.2⟩
      · rename_i h1 h2
        simp only [Mem.wfFrom, Bool.and_eq_true, decide_eq_true_eq]
        exact ⟨⟨h.1.1, h.1.2⟩, ih h.2 (by omega)⟩

/-- A write keeps the canonical form. -/
theorem Memory.wf_write {m : Mem} (h : Memory.wf m = true) (a : Nat) (b : Byte) : Memory.wf (m.write a b) = true :=
  Mem.wfFrom_write h (Nat.zero_le a) b

theorem Memory.wf_writeLE {m : Mem} (h : Memory.wf m = true) (a n x : Nat) : Memory.wf (m.writeLE a n x) = true := by
  induction n generalizing m a x with
  | zero => exact h
  | succ n ih => exact ih (Memory.wf_write h a _) _ _

theorem Memory.wf_writeBytes {m : Mem} (h : Memory.wf m = true) (a : Nat) (l : List Byte) : Memory.wf (m.writeBytes a l) = true := by
  induction l generalizing m a with
  | nil => exact h
  | cons b r ih => exact ih (Memory.wf_write h a b) _

theorem Mem.wfFrom_filter {m : Mem} {lo : Nat} (h : Mem.wfFrom lo m = true) (p : Host.Cell → Bool) :
    Mem.wfFrom lo (m.filter p) = true := by
  induction m generalizing lo with
  | nil => rfl
  | cons q r ih =>
    obtain ⟨j, w⟩ := q
    simp only [Mem.wfFrom, Bool.and_eq_true, decide_eq_true_eq] at h
    simp only [List.filter_cons]
    split
    · simp only [Mem.wfFrom, Bool.and_eq_true, decide_eq_true_eq]
      exact ⟨h.1, ih h.2⟩
    · exact Mem.wfFrom_mono (ih h.2) (by omega)

theorem Memory.wf_filter {m : Mem} (h : Memory.wf m = true) (p : Host.Cell → Bool) : Memory.wf (m.filter p) = true :=
  Mem.wfFrom_filter h p

theorem Memory.wf_zero {m : Mem} (h : Memory.wf m = true) (lo n : Nat) : Memory.wf (m.zero lo n) = true := Mem.wfFrom_filter h _

@[simp] theorem Memory.wf_nil : Memory.wf [] = true := rfl

/-- A byte written reads back. -/
theorem Mem.read_write {m : Mem} (h : Memory.wf m = true) (a k : Nat) (b : Byte) :
    (m.write a b).read k = if k = a then b else m.read k := by
  split
  · rename_i hk; subst hk; exact Mem.read_write_same h k b
  · rename_i hk; exact Mem.read_write_of_ne m b hk

/-- Bytes outside a little-endian write stay, in every memory. -/
theorem Mem.read_writeLE_outside (m : Mem) (a n x k : Nat) (h : k < a ∨ a + n ≤ k) : (m.writeLE a n x).read k = m.read k := by
  induction n generalizing m a x with
  | zero => rfl
  | succ n ih =>
    simp only [Mem.writeLE]
    rw [ih _ _ _ (by omega), Mem.read_write_of_ne _ _ (by omega)]

/-- Every byte of a little-endian write reads back. -/
theorem Mem.read_writeLE_inside {m : Mem} (h : Memory.wf m = true) (a n x k : Nat) (hk : k < n) :
    (m.writeLE a n x).read (a + k) = BitVec.ofNat 8 (x / 256 ^ k) := by
  induction n generalizing m a x k with
  | zero => omega
  | succ n ih =>
    simp only [Mem.writeLE]
    rcases Nat.eq_zero_or_pos k with h0 | h0
    · subst h0
      rw [Mem.read_writeLE_outside _ _ _ _ _ (by omega), Nat.add_zero, Mem.read_write_same h]
      simp
    · obtain ⟨j, rfl⟩ : ∃ j, k = j + 1 := ⟨k - 1, by omega⟩
      have := ih (Memory.wf_write h a (BitVec.ofNat 8 x)) (a + 1) (x / 256) j (by omega)
      rw [show a + (j + 1) = a + 1 + j by omega, this, Nat.div_div_eq_div_mul, Nat.pow_succ, Nat.mul_comm]

/-- Bytes outside a written byte string stay, in every memory. -/
theorem Mem.read_writeBytes_outside (m : Mem) (a k : Nat) (l : List Byte) (h : k < a ∨ a + l.length ≤ k) :
    (m.writeBytes a l).read k = m.read k := by
  induction l generalizing m a with
  | nil => rfl
  | cons b r ih =>
    simp only [Mem.writeBytes, List.length_cons] at h ⊢
    rw [ih _ _ (by omega), Mem.read_write_of_ne _ _ (by omega)]

end Sys2Proof.Machine
end

