-- ==== Sys2Proof/Laws/Access.lean ====
section
/-! SUPPORT. What each unit holds after each update: the unit set holds the new value, and no other unit changes. -/

namespace Sys2Proof.Machine

/-! ### State.setTile -/

section
variable (s : State) (t : Nat) (v : Tile) (k : Nat)
@[simp] theorem State.setTile_tile : (s.setTile t v).tile k = if k = t then v else s.tile k := Tbl.get_set _ _ _ _ _
@[simp] theorem State.setTile_router : (s.setTile t v).router k = s.router k := rfl
@[simp] theorem State.setTile_ctx : (s.setTile t v).ctx k = s.ctx k := rfl
@[simp] theorem State.setTile_tenant : (s.setTile t v).tenant k = s.tenant k := rfl
@[simp] theorem State.setTile_fn : (s.setTile t v).fn k = s.fn k := rfl
@[simp] theorem State.setTile_wharf : (s.setTile t v).wharf k = s.wharf k := rfl
@[simp] theorem State.setTile_stack : (s.setTile t v).stack k = s.stack k := rfl
@[simp] theorem State.setTile_port : (s.setTile t v).port k = s.port k := rfl
@[simp] theorem State.setTile_die : (s.setTile t v).die k = s.die k := rfl
@[simp] theorem State.setTile_loop : (s.setTile t v).loop k = s.loop k := rfl
@[simp] theorem State.setTile_loopStream : (s.setTile t v).loopStream k = s.loopStream k := rfl
end

/-! ### State.setRouter -/

section
variable (s : State) (t : Nat) (v : Router) (k : Nat)
@[simp] theorem State.setRouter_tile : (s.setRouter t v).tile k = s.tile k := rfl
@[simp] theorem State.setRouter_router : (s.setRouter t v).router k = if k = t then v else s.router k := Tbl.get_set _ _ _ _ _
@[simp] theorem State.setRouter_ctx : (s.setRouter t v).ctx k = s.ctx k := rfl
@[simp] theorem State.setRouter_tenant : (s.setRouter t v).tenant k = s.tenant k := rfl
@[simp] theorem State.setRouter_fn : (s.setRouter t v).fn k = s.fn k := rfl
@[simp] theorem State.setRouter_wharf : (s.setRouter t v).wharf k = s.wharf k := rfl
@[simp] theorem State.setRouter_stack : (s.setRouter t v).stack k = s.stack k := rfl
@[simp] theorem State.setRouter_port : (s.setRouter t v).port k = s.port k := rfl
@[simp] theorem State.setRouter_die : (s.setRouter t v).die k = s.die k := rfl
@[simp] theorem State.setRouter_loop : (s.setRouter t v).loop k = s.loop k := rfl
@[simp] theorem State.setRouter_loopStream : (s.setRouter t v).loopStream k = s.loopStream k := rfl
end

/-! ### State.setCtx -/

section
variable (s : State) (c : Nat) (v : Ctx) (k : Nat)
@[simp] theorem State.setCtx_tile : (s.setCtx c v).tile k = s.tile k := rfl
@[simp] theorem State.setCtx_router : (s.setCtx c v).router k = s.router k := rfl
@[simp] theorem State.setCtx_ctx : (s.setCtx c v).ctx k = if k = c then v else s.ctx k := Tbl.get_set _ _ _ _ _
@[simp] theorem State.setCtx_tenant : (s.setCtx c v).tenant k = s.tenant k := rfl
@[simp] theorem State.setCtx_fn : (s.setCtx c v).fn k = s.fn k := rfl
@[simp] theorem State.setCtx_wharf : (s.setCtx c v).wharf k = s.wharf k := rfl
@[simp] theorem State.setCtx_stack : (s.setCtx c v).stack k = s.stack k := rfl
@[simp] theorem State.setCtx_port : (s.setCtx c v).port k = s.port k := rfl
@[simp] theorem State.setCtx_die : (s.setCtx c v).die k = s.die k := rfl
@[simp] theorem State.setCtx_loop : (s.setCtx c v).loop k = s.loop k := rfl
@[simp] theorem State.setCtx_loopStream : (s.setCtx c v).loopStream k = s.loopStream k := rfl
end

/-! ### State.setTenant -/

section
variable (s : State) (n : Nat) (v : Tenant) (k : Nat)
@[simp] theorem State.setTenant_tile : (s.setTenant n v).tile k = s.tile k := rfl
@[simp] theorem State.setTenant_router : (s.setTenant n v).router k = s.router k := rfl
@[simp] theorem State.setTenant_ctx : (s.setTenant n v).ctx k = s.ctx k := rfl
@[simp] theorem State.setTenant_tenant : (s.setTenant n v).tenant k = if k = n then v else s.tenant k := Tbl.get_set _ _ _ _ _
@[simp] theorem State.setTenant_fn : (s.setTenant n v).fn k = s.fn k := rfl
@[simp] theorem State.setTenant_wharf : (s.setTenant n v).wharf k = s.wharf k := rfl
@[simp] theorem State.setTenant_stack : (s.setTenant n v).stack k = s.stack k := rfl
@[simp] theorem State.setTenant_port : (s.setTenant n v).port k = s.port k := rfl
@[simp] theorem State.setTenant_die : (s.setTenant n v).die k = s.die k := rfl
@[simp] theorem State.setTenant_loop : (s.setTenant n v).loop k = s.loop k := rfl
@[simp] theorem State.setTenant_loopStream : (s.setTenant n v).loopStream k = s.loopStream k := rfl
end

/-! ### State.setFn -/

section
variable (s : State) (f : Nat) (v : Fn) (k : Nat)
@[simp] theorem State.setFn_tile : (s.setFn f v).tile k = s.tile k := rfl
@[simp] theorem State.setFn_router : (s.setFn f v).router k = s.router k := rfl
@[simp] theorem State.setFn_ctx : (s.setFn f v).ctx k = s.ctx k := rfl
@[simp] theorem State.setFn_tenant : (s.setFn f v).tenant k = s.tenant k := rfl
@[simp] theorem State.setFn_fn : (s.setFn f v).fn k = if k = f then v else s.fn k := Tbl.get_set _ _ _ _ _
@[simp] theorem State.setFn_wharf : (s.setFn f v).wharf k = s.wharf k := rfl
@[simp] theorem State.setFn_stack : (s.setFn f v).stack k = s.stack k := rfl
@[simp] theorem State.setFn_port : (s.setFn f v).port k = s.port k := rfl
@[simp] theorem State.setFn_die : (s.setFn f v).die k = s.die k := rfl
@[simp] theorem State.setFn_loop : (s.setFn f v).loop k = s.loop k := rfl
@[simp] theorem State.setFn_loopStream : (s.setFn f v).loopStream k = s.loopStream k := rfl
end

/-! ### State.setWharf -/

section
variable (s : State) (g : Nat) (v : Wharf) (k : Nat)
@[simp] theorem State.setWharf_tile : (s.setWharf g v).tile k = s.tile k := rfl
@[simp] theorem State.setWharf_router : (s.setWharf g v).router k = s.router k := rfl
@[simp] theorem State.setWharf_ctx : (s.setWharf g v).ctx k = s.ctx k := rfl
@[simp] theorem State.setWharf_tenant : (s.setWharf g v).tenant k = s.tenant k := rfl
@[simp] theorem State.setWharf_fn : (s.setWharf g v).fn k = s.fn k := rfl
@[simp] theorem State.setWharf_wharf : (s.setWharf g v).wharf k = if k = g then v else s.wharf k := Tbl.get_set _ _ _ _ _
@[simp] theorem State.setWharf_stack : (s.setWharf g v).stack k = s.stack k := rfl
@[simp] theorem State.setWharf_port : (s.setWharf g v).port k = s.port k := rfl
@[simp] theorem State.setWharf_die : (s.setWharf g v).die k = s.die k := rfl
@[simp] theorem State.setWharf_loop : (s.setWharf g v).loop k = s.loop k := rfl
@[simp] theorem State.setWharf_loopStream : (s.setWharf g v).loopStream k = s.loopStream k := rfl
end

/-! ### State.setStack -/

section
variable (s : State) (j : Nat) (v : Stack) (k : Nat)
@[simp] theorem State.setStack_tile : (s.setStack j v).tile k = s.tile k := rfl
@[simp] theorem State.setStack_router : (s.setStack j v).router k = s.router k := rfl
@[simp] theorem State.setStack_ctx : (s.setStack j v).ctx k = s.ctx k := rfl
@[simp] theorem State.setStack_tenant : (s.setStack j v).tenant k = s.tenant k := rfl
@[simp] theorem State.setStack_fn : (s.setStack j v).fn k = s.fn k := rfl
@[simp] theorem State.setStack_wharf : (s.setStack j v).wharf k = s.wharf k := rfl
@[simp] theorem State.setStack_stack : (s.setStack j v).stack k = if k = j then v else s.stack k := Tbl.get_set _ _ _ _ _
@[simp] theorem State.setStack_port : (s.setStack j v).port k = s.port k := rfl
@[simp] theorem State.setStack_die : (s.setStack j v).die k = s.die k := rfl
@[simp] theorem State.setStack_loop : (s.setStack j v).loop k = s.loop k := rfl
@[simp] theorem State.setStack_loopStream : (s.setStack j v).loopStream k = s.loopStream k := rfl
end

/-! ### State.setPort -/

section
variable (s : State) (p : Nat) (v : GPort) (k : Nat)
@[simp] theorem State.setPort_tile : (s.setPort p v).tile k = s.tile k := rfl
@[simp] theorem State.setPort_router : (s.setPort p v).router k = s.router k := rfl
@[simp] theorem State.setPort_ctx : (s.setPort p v).ctx k = s.ctx k := rfl
@[simp] theorem State.setPort_tenant : (s.setPort p v).tenant k = s.tenant k := rfl
@[simp] theorem State.setPort_fn : (s.setPort p v).fn k = s.fn k := rfl
@[simp] theorem State.setPort_wharf : (s.setPort p v).wharf k = s.wharf k := rfl
@[simp] theorem State.setPort_stack : (s.setPort p v).stack k = s.stack k := rfl
@[simp] theorem State.setPort_port : (s.setPort p v).port k = if k = p then v else s.port k := Tbl.get_set _ _ _ _ _
@[simp] theorem State.setPort_die : (s.setPort p v).die k = s.die k := rfl
@[simp] theorem State.setPort_loop : (s.setPort p v).loop k = s.loop k := rfl
@[simp] theorem State.setPort_loopStream : (s.setPort p v).loopStream k = s.loopStream k := rfl
end

/-! ### State.setDie -/

section
variable (s : State) (d : Nat) (v : DieClk) (k : Nat)
@[simp] theorem State.setDie_tile : (s.setDie d v).tile k = s.tile k := rfl
@[simp] theorem State.setDie_router : (s.setDie d v).router k = s.router k := rfl
@[simp] theorem State.setDie_ctx : (s.setDie d v).ctx k = s.ctx k := rfl
@[simp] theorem State.setDie_tenant : (s.setDie d v).tenant k = s.tenant k := rfl
@[simp] theorem State.setDie_fn : (s.setDie d v).fn k = s.fn k := rfl
@[simp] theorem State.setDie_wharf : (s.setDie d v).wharf k = s.wharf k := rfl
@[simp] theorem State.setDie_stack : (s.setDie d v).stack k = s.stack k := rfl
@[simp] theorem State.setDie_port : (s.setDie d v).port k = s.port k := rfl
@[simp] theorem State.setDie_die : (s.setDie d v).die k = if k = d then v else s.die k := Tbl.get_set _ _ _ _ _
@[simp] theorem State.setDie_loop : (s.setDie d v).loop k = s.loop k := rfl
@[simp] theorem State.setDie_loopStream : (s.setDie d v).loopStream k = s.loopStream k := rfl
end

/-! ### State.setLoop -/

section
variable (s : State) (l : Nat) (v : LoopPort) (k : Nat)
@[simp] theorem State.setLoop_tile : (s.setLoop l v).tile k = s.tile k := rfl
@[simp] theorem State.setLoop_router : (s.setLoop l v).router k = s.router k := rfl
@[simp] theorem State.setLoop_ctx : (s.setLoop l v).ctx k = s.ctx k := rfl
@[simp] theorem State.setLoop_tenant : (s.setLoop l v).tenant k = s.tenant k := rfl
@[simp] theorem State.setLoop_fn : (s.setLoop l v).fn k = s.fn k := rfl
@[simp] theorem State.setLoop_wharf : (s.setLoop l v).wharf k = s.wharf k := rfl
@[simp] theorem State.setLoop_stack : (s.setLoop l v).stack k = s.stack k := rfl
@[simp] theorem State.setLoop_port : (s.setLoop l v).port k = s.port k := rfl
@[simp] theorem State.setLoop_die : (s.setLoop l v).die k = s.die k := rfl
@[simp] theorem State.setLoop_loop : (s.setLoop l v).loop k = if k = l then v else s.loop k := Tbl.get_set _ _ _ _ _
@[simp] theorem State.setLoop_loopStream : (s.setLoop l v).loopStream k = s.loopStream k := rfl
end

/-! ### State.setStream -/

section
variable (s : State) (j : Nat) (v : LoopStream) (k : Nat)
@[simp] theorem State.setStream_tile : (s.setStream j v).tile k = s.tile k := rfl
@[simp] theorem State.setStream_router : (s.setStream j v).router k = s.router k := rfl
@[simp] theorem State.setStream_ctx : (s.setStream j v).ctx k = s.ctx k := rfl
@[simp] theorem State.setStream_tenant : (s.setStream j v).tenant k = s.tenant k := rfl
@[simp] theorem State.setStream_fn : (s.setStream j v).fn k = s.fn k := rfl
@[simp] theorem State.setStream_wharf : (s.setStream j v).wharf k = s.wharf k := rfl
@[simp] theorem State.setStream_stack : (s.setStream j v).stack k = s.stack k := rfl
@[simp] theorem State.setStream_port : (s.setStream j v).port k = s.port k := rfl
@[simp] theorem State.setStream_die : (s.setStream j v).die k = s.die k := rfl
@[simp] theorem State.setStream_loop : (s.setStream j v).loop k = s.loop k := rfl
@[simp] theorem State.setStream_loopStream : (s.setStream j v).loopStream k = if k = j then v else s.loopStream k := Tbl.get_set _ _ _ _ _
end

/-! ### State.modEntropy -/

section
variable (s : State) (f : Entropy → Entropy) (k : Nat)
@[simp] theorem State.modEntropy_tile : (s.modEntropy f).tile k = s.tile k := rfl
@[simp] theorem State.modEntropy_router : (s.modEntropy f).router k = s.router k := rfl
@[simp] theorem State.modEntropy_ctx : (s.modEntropy f).ctx k = s.ctx k := rfl
@[simp] theorem State.modEntropy_tenant : (s.modEntropy f).tenant k = s.tenant k := rfl
@[simp] theorem State.modEntropy_fn : (s.modEntropy f).fn k = s.fn k := rfl
@[simp] theorem State.modEntropy_wharf : (s.modEntropy f).wharf k = s.wharf k := rfl
@[simp] theorem State.modEntropy_stack : (s.modEntropy f).stack k = s.stack k := rfl
@[simp] theorem State.modEntropy_port : (s.modEntropy f).port k = s.port k := rfl
@[simp] theorem State.modEntropy_die : (s.modEntropy f).die k = s.die k := rfl
@[simp] theorem State.modEntropy_loop : (s.modEntropy f).loop k = s.loop k := rfl
@[simp] theorem State.modEntropy_loopStream : (s.modEntropy f).loopStream k = s.loopStream k := rfl
end

/-! ### State.modPower -/

section
variable (s : State) (f : Power → Power) (k : Nat)
@[simp] theorem State.modPower_tile : (s.modPower f).tile k = s.tile k := rfl
@[simp] theorem State.modPower_router : (s.modPower f).router k = s.router k := rfl
@[simp] theorem State.modPower_ctx : (s.modPower f).ctx k = s.ctx k := rfl
@[simp] theorem State.modPower_tenant : (s.modPower f).tenant k = s.tenant k := rfl
@[simp] theorem State.modPower_fn : (s.modPower f).fn k = s.fn k := rfl
@[simp] theorem State.modPower_wharf : (s.modPower f).wharf k = s.wharf k := rfl
@[simp] theorem State.modPower_stack : (s.modPower f).stack k = s.stack k := rfl
@[simp] theorem State.modPower_port : (s.modPower f).port k = s.port k := rfl
@[simp] theorem State.modPower_die : (s.modPower f).die k = s.die k := rfl
@[simp] theorem State.modPower_loop : (s.modPower f).loop k = s.loop k := rfl
@[simp] theorem State.modPower_loopStream : (s.modPower f).loopStream k = s.loopStream k := rfl
end

/-! ### State.setUpdate -/

section
variable (s : State) (u : Option FwUpdate) (k : Nat)
@[simp] theorem State.setUpdate_tile : (s.setUpdate u).tile k = s.tile k := rfl
@[simp] theorem State.setUpdate_router : (s.setUpdate u).router k = s.router k := rfl
@[simp] theorem State.setUpdate_ctx : (s.setUpdate u).ctx k = s.ctx k := rfl
@[simp] theorem State.setUpdate_tenant : (s.setUpdate u).tenant k = s.tenant k := rfl
@[simp] theorem State.setUpdate_fn : (s.setUpdate u).fn k = s.fn k := rfl
@[simp] theorem State.setUpdate_wharf : (s.setUpdate u).wharf k = s.wharf k := rfl
@[simp] theorem State.setUpdate_stack : (s.setUpdate u).stack k = s.stack k := rfl
@[simp] theorem State.setUpdate_port : (s.setUpdate u).port k = s.port k := rfl
@[simp] theorem State.setUpdate_die : (s.setUpdate u).die k = s.die k := rfl
@[simp] theorem State.setUpdate_loop : (s.setUpdate u).loop k = s.loop k := rfl
@[simp] theorem State.setUpdate_loopStream : (s.setUpdate u).loopStream k = s.loopStream k := rfl
end

/-! ### State.setBank -/

section
variable (s : State) (b : Nat) (v : Bank) (k : Nat)
@[simp] theorem State.setBank_tile : (s.setBank b v).tile k = s.tile k := rfl
@[simp] theorem State.setBank_router : (s.setBank b v).router k = s.router k := rfl
@[simp] theorem State.setBank_ctx : (s.setBank b v).ctx k = s.ctx k := rfl
@[simp] theorem State.setBank_tenant : (s.setBank b v).tenant k = s.tenant k := rfl
@[simp] theorem State.setBank_fn : (s.setBank b v).fn k = s.fn k := rfl
@[simp] theorem State.setBank_wharf : (s.setBank b v).wharf k = s.wharf k := rfl
@[simp] theorem State.setBank_stack : (s.setBank b v).stack k = s.stack k := rfl
@[simp] theorem State.setBank_port : (s.setBank b v).port k = s.port k := rfl
@[simp] theorem State.setBank_die : (s.setBank b v).die k = s.die k := rfl
@[simp] theorem State.setBank_loop : (s.setBank b v).loop k = s.loop k := rfl
@[simp] theorem State.setBank_loopStream : (s.setBank b v).loopStream k = s.loopStream k := rfl
end

end Sys2Proof.Machine
end

