-- ==== Sys2Proof/Laws/Ops.lean ====
section
/-! SUPPORT. What each shared operation can do, said once: events, results, mailbox commands, scalar instructions, orders, SPDM
requests, and the lines of the Hold. -/

namespace Sys2Proof.Machine

/-! ### Events: only event queues and host memory change -/

/-- Nothing but the functions' pages and host memory differs. -/
def EventsOnly (s u : State) : Prop := ∃ x m, u = { s with fns := x, hostMem := m }

theorem EventsOnly.refl (s : State) : EventsOnly s s := ⟨_, _, rfl⟩

theorem EventsOnly.trans {s u v : State} (h : EventsOnly s u) (k : EventsOnly u v) : EventsOnly s v := by
  obtain ⟨x, m, rfl⟩ := h
  obtain ⟨y, n, rfl⟩ := k
  exact ⟨y, n, rfl⟩

/-- Every other field is as it was. -/
theorem EventsOnly.eq {s u : State} (h : EventsOnly s u) : u = { s with fns := u.fns, hostMem := u.hostMem } := by
  obtain ⟨x, m, rfl⟩ := h
  rfl

theorem EventsOnly.setFn (s : State) (f : Nat) (x : Fn) : EventsOnly s (s.setFn f x) := ⟨_, _, rfl⟩

theorem State.eqWrite_events (s : State) (f : Nat) (q : EventQueue) (e : Event) : EventsOnly s (s.eqWrite f q e) := ⟨_, _, rfl⟩

theorem State.postTo_events (s : State) (f : Nat) (e : Event) : EventsOnly s (s.postTo f e) := by
  unfold State.postTo
  dsimp only
  split
  · split <;> exact .setFn ..
  · rename_i q _
    split
    · exact .setFn ..
    · split
      · exact State.eqWrite_events ..
      · refine EventsOnly.trans (State.eqWrite_events s f q (overflowEvent s.now (s.fn f).lost)) ?_
        split
        · exact .setFn ..
        · split
          · exact EventsOnly.trans (EventsOnly.setFn ..) (EventsOnly.setFn ..)
          · exact EventsOnly.trans (EventsOnly.setFn ..) (State.eqWrite_events ..)

/-- A fold of updates that change event queues alone changes event queues alone. -/
theorem EventsOnly.foldl {α : Type} {g : State → α → State} (h : ∀ s a, EventsOnly s (g s a)) (l : List α) (s : State) :
    EventsOnly s (l.foldl g s) := by
  induction l generalizing s with
  | nil => exact .refl s
  | cons a r ih => exact .trans (h s a) (ih _)

theorem State.postNum_events (s : State) (num : Nat) (e : Event) : EventsOnly s (s.postNum num e) :=
  .foldl (fun s f => s.postTo_events f e) _ _
theorem State.postTenant_events (s : State) (n ty sub domain b : Nat) : EventsOnly s (s.postTenant n ty sub domain b) :=
  s.postNum_events ..
theorem State.postPF_events (s : State) (ty sub b : Nat) : EventsOnly s (s.postPF ty sub b) := s.postNum_events ..
theorem State.postAll_events (s : State) (ty sub b : Nat) : EventsOnly s (s.postAll ty sub b) := by
  unfold State.postAll
  exact .foldl (fun t n => t.postNum_events ..) _ _
theorem State.domainEvent_events (s : State) (c sub more : Nat) : EventsOnly s (s.domainEvent c sub more) := by
  unfold State.domainEvent
  dsimp only
  split
  · exact .trans (State.postTenant_events ..) (State.postNum_events ..)
  · exact State.postTenant_events ..
theorem State.settle_events (s : State) (f slot status detail flags len data : Nat) :
    EventsOnly s (s.settle f slot status detail flags len data) := by
  unfold State.settle
  dsimp only
  split
  · exact .setFn ..
  · exact .refl s
/-- A response changes the functions and the round of the Lockkeeper alone. -/
theorem State.respond_only (s : State) (f : Nat) (r : Resp) :
    s.respond f r = { s with fns := (s.respond f r).fns, lk := { s.lk with served := f } } := rfl
theorem State.stopEvent_events (s : State) (t : Nat) (h : (s.tile t).core.stop = none) : s.stopEvent t = s := by
  simp [State.stopEvent, h]

/-- Events keep host memory canonical. -/
theorem State.eqWrite_hostMem {s : State} (h : Memory.wf s.hostMem = true) (f : Nat) (q : EventQueue) (e : Event) :
    Memory.wf (s.eqWrite f q e).hostMem = true := by
  dsimp only [State.eqWrite, State.setFn]
  exact Memory.wf_writeLE h _ _ _

theorem State.postTo_hostMem {s : State} (h : Memory.wf s.hostMem = true) (f : Nat) (e : Event) :
    Memory.wf (s.postTo f e).hostMem = true := by
  unfold State.postTo
  dsimp only
  split
  · split <;> exact h
  · rename_i q _
    split
    · exact h
    · split
      · exact State.eqWrite_hostMem h ..
      · have k : Memory.wf (s.eqWrite f q (overflowEvent s.now (s.fn f).lost)).hostMem = true := State.eqWrite_hostMem h f q (overflowEvent s.now (s.fn f).lost)
        generalize s.eqWrite f q (overflowEvent s.now (s.fn f).lost) = u at k ⊢
        split
        · exact k
        · split
          · exact k
          · rename_i q _ _
            exact State.eqWrite_hostMem (s := u.setFn f { u.fn f with lost := 0 }) k f q e

/-- What every element of a fold keeps, the fold keeps. -/
theorem foldl_keeps {α β : Type} {p : β → Prop} {g : β → α → β} (h : ∀ b a, p b → p (g b a)) (l : List α) (b : β) (hb : p b) :
    p (l.foldl g b) := by
  induction l generalizing b with
  | nil => exact hb
  | cons a r ih => exact ih _ (h b a hb)

theorem State.postNum_hostMem {s : State} (h : Memory.wf s.hostMem = true) (num : Nat) (e : Event) :
    Memory.wf (s.postNum num e).hostMem = true :=
  foldl_keeps (p := fun s : State => Memory.wf s.hostMem = true) (fun _ f h => State.postTo_hostMem h f e) _ _ h

/-! ### Results and responses (R381, R391) -/

/-- The outcome of a running generation whose outcome is not yet decided. -/
theorem State.settle_slot {s : State} {f slot : Nat} (he : slot / 16 = (s.fn f).epoch)
    (hr : (slotAt s f (slot % 16)).running = true) (hn : (slotAt s f (slot % 16)).ready = none) (status detail flags len data : Nat) :
    slotAt (s.settle f slot status detail flags len data) f (slot % 16) = { slotAt s f (slot % 16) with ready := some {
      gen := (slotAt s f (slot % 16)).gen, code := (slotAt s f (slot % 16)).code, status := status, detail := detail, flags := flags
      len := len, data := BitVec.ofNat 1792 data } } := by
  unfold slotAt at *
  unfold State.settle
  dsimp only
  rw [if_pos ⟨he, hr, Option.isNone_iff_eq_none.mpr hn⟩]
  simp only [State.setFn_fn, if_true, Tbl.get_set]

/-- No other slot and no other function has its slot decided. -/
theorem State.settle_other (s : State) (f slot status detail flags len data g k : Nat) (h : g ≠ f ∨ k ≠ slot % 16) :
    slotAt (s.settle f slot status detail flags len data) g k = slotAt s g k := by
  unfold slotAt State.settle
  dsimp only
  split
  · by_cases hg : g = f
    · subst hg
      have hk : k ≠ slot % 16 := by omega
      simp [hk]
    · simp [hg]
  · rfl

@[simp] theorem State.respond_fn (s : State) (f g : Nat) (r : Resp) :
    (s.respond f r).fn g = if g = f then { s.fn f with resp := some r } else s.fn g := by
  unfold State.respond State.modFn
  exact Tbl.get_set _ _ _ _ _

theorem State.respond_says (s : State) (f : Nat) (r : Resp) : Says (s.respond f r) f r := by simp [Says]

/-! ### Mailbox commands (R387, R391) -/

/-- A command that passes the common checks is run and answered at once. -/
theorem immediate_passes {s : State} {f code c : Nat} (h : Passes s f code c) (run : Nat → State → State × Resp) :
    immediate f code s run = .next ((run c s).1.respond f (run c s).2) := by
  obtain ⟨h1, h2, h3, h4⟩ := h
  simp [immediate, Nat.not_le.mpr h1, h2, h3, h4]

/-- One that fails them is answered with the failure, and nothing is run. -/
theorem immediate_refused {s : State} {f code c : Nat} {r : Resp} (h1 : f < 514) (h2 : s.underWay f = some c) (h3 : fieldLE c 0 2 = code)
    (h4 : s.refusal f c = some r) (run : Nat → State → State × Resp) : immediate f code s run = .next (s.respond f r) := by
  simp [immediate, Nat.not_le.mpr h1, h2, h3, h4]

theorem ctxCmd_passes {s : State} {f code c x : Nat} (h : Passes s f code c) (hx : ctxOf f c = .ok x)
    (run : Nat → Nat → State → State × Resp) : ctxCmd f code s run = .next ((run x c s).1.respond f (run x c s).2) := by
  unfold ctxCmd
  rw [immediate_passes h]
  simp [hx]

/-- The state in which a deferred command's slot has begun its generation and the response says so. -/
def State.begun (s : State) (f c code : Nat) : State :=
  let k := fieldLE c 3 1
  let sl := slotAt s f k
  let new : Slot := { sl with gen := sl.gen + 1, running := true, code := code, cmd := BitVec.ofNat 2048 c, ready := none }
  (s.setFn f { s.fn f with slots := (s.fn f).slots.set k new }).respond f { Resp.done with rflags := 4, slot := k, gen := sl.gen + 1 }

/-- A deferred command that passes the common checks and its own, on a free slot. -/
theorem deferredCmd_passes {s : State} {f code c : Nat} (h : Passes s f code c) (hf : SlotFree s f c) {early : Nat → Option Resp}
    (he : early c = none) (start : Nat → Nat → State → State) :
    deferredCmd f code s early start = .next (start c (fieldLE c 3 1 + 16 * (s.fn f).epoch) (s.begun f c code)) := by
  obtain ⟨h1, h2, h3, h4⟩ := h
  unfold SlotFree slotAt at hf
  simp only [deferredCmd, h2, h3, h4, he, hf, State.begun, slotAt, Option.or, ne_eq, not_true_eq_false, if_false, Bool.false_eq_true]
  rw [if_neg (by omega)]

/-- A deferred command that its own checks refuse. -/
theorem deferredCmd_early {s : State} {f code c : Nat} {r : Resp} (h : Passes s f code c) {early : Nat → Option Resp}
    (he : early c = some r) (start : Nat → Nat → State → State) : deferredCmd f code s early start = .next (s.respond f r) := by
  obtain ⟨h1, h2, h3, h4⟩ := h
  simp [deferredCmd, Nat.not_le.mpr h1, h2, h3, h4, he]

theorem deferredCmd_refused {s : State} {f code c : Nat} {r : Resp} (h1 : f < 514) (h2 : s.underWay f = some c)
    (h3 : fieldLE c 0 2 = code) (h4 : s.refusal f c = some r) (early : Nat → Option Resp) (start : Nat → Nat → State → State) :
    deferredCmd f code s early start = .next (s.respond f r) := by
  simp [deferredCmd, Nat.not_le.mpr h1, h2, h3, h4]

theorem ctxDeferred_passes {s : State} {f code c x : Nat} (h : Passes s f code c) (hf : SlotFree s f c) (hx : ctxOf f c = .ok x)
    {early : Nat → Nat → Option Resp} (he : early x c = none) (start : Nat → Nat → Nat → State → State) :
    ctxDeferred f code s early start = .next (start x c (fieldLE c 3 1 + 16 * (s.fn f).epoch) (s.begun f c code)) := by
  unfold ctxDeferred
  rw [deferredCmd_passes h hf (by simp [hx, he])]
  simp [hx]

/-- What a begun generation leaves in the function, and nothing else of the block changes. -/
theorem State.begun_fn (s : State) (f c code : Nat) :
    (s.begun f c code).fn f = { s.fn f with
      slots := (s.fn f).slots.set (fieldLE c 3 1) { slotAt s f (fieldLE c 3 1) with
        gen := (slotAt s f (fieldLE c 3 1)).gen + 1, running := true, code := code, cmd := BitVec.ofNat 2048 c, ready := none }
      resp := some { Resp.done with rflags := 4, slot := fieldLE c 3 1, gen := (slotAt s f (fieldLE c 3 1)).gen + 1 } } := by
  simp [State.begun]

theorem State.begun_slot (s : State) (f c code : Nat) :
    slotAt (s.begun f c code) f (fieldLE c 3 1) = { slotAt s f (fieldLE c 3 1) with
      gen := (slotAt s f (fieldLE c 3 1)).gen + 1, running := true, code := code, cmd := BitVec.ofNat 2048 c, ready := none } := by
  simp [slotAt, State.begun_fn]

theorem State.begun_only (s : State) (f c code : Nat) :
    s.begun f c code = { s with fns := (s.begun f c code).fns, lk := { s.lk with served := f } } := rfl

/-- A begun generation has begun, and has no outcome yet. -/
theorem State.begun_begins (s : State) (f c code : Nat) (h : fieldLE c 0 2 = code) : Begins s (s.begun f c code) f c ∧ Waits (s.begun f c code) f c := by
  subst h
  exact ⟨⟨by simp [Says, State.begun_fn], by simp [State.begun_slot], by simp [State.begun_slot], by simp [State.begun_slot]⟩,
    by simp [Waits, State.begun_slot]⟩

/-! ### Scalar instructions (R161, R163) -/

/-- A core that is ready executes its word. -/
theorem scalar_ready {s : State} {t op : Nat} (h : Ready s t op = true) (f : Tile → Word → Nat → SRes) :
    scalar t op [] f s = .next (s.scalarResult t (s.tile t).core.pc.toNat (f (s.tile t) (s.tile t).instr (s.tile t).core.pc.toNat)) := by
  simp only [Ready, Bool.and_eq_true, decide_eq_true_eq] at h
  obtain ⟨⟨⟨h1, h2⟩, h3⟩, h4⟩ := h
  simp only [scalar, Tile.upsets, List.foldl_nil, h2, h3, h4, Bool.and_self, if_true]
  rw [if_neg (by omega)]

/-- One that is not ready, or whose word has another opcode, does nothing. -/
theorem scalar_idle {s : State} {t op : Nat} (ht : t < numTiles) {ups : List (Nat × Bool)}
    (h : (s.coreReady t && iOp ((s.tile t).upsets ups).instr == op) = false) (f : Tile → Word → Nat → SRes) : scalar t op ups f s = .next s := by
  simp only [scalar, h]
  rw [if_neg (by omega)]
  rfl

/-- The three ends of an instruction. -/
theorem State.scalarResult_done (s : State) (t i : Nat) (tl : Tile) (next cost : Nat) :
    s.scalarResult t i (.done tl next cost) = ScalarNext s t tl next cost := rfl
theorem State.scalarResult_fault (s : State) (t i : Nat) (tl : Tile) (cause detail addr : Nat) (hw : Bool) :
    s.scalarResult t i (.fault tl cause detail addr hw) = (s.setTile t tl).tileFault t cause 0 detail i addr hw := rfl
theorem State.scalarResult_stay (s : State) (t i : Nat) (tl : Tile) : s.scalarResult t i (.stay tl) = s.setTile t tl := rfl

/-! ### Orders (R75) -/

/-- The order executing on a running engine does its work when its own row comes. -/
theorem orderRow_runs {s : State} {t e op : Nat} {o : Order} (ht : t < numTiles) (ho : ((s.tile t).engine e).exec = some o)
    (hr : s.enginesRun t = true) (hop : ordOpcode o = op) (ups : List (Nat × Bool)) (work : Tile → Order → OrdDone) :
    orderRow t e op ups work s = .next (s.orderDone t e o (work ((s.tile t).upsets ups) o)) := by
  simp only [orderRow]
  rw [if_neg (by omega)]
  simp [ho, hr, hop]

/-- No row does anything on an engine that executes another order, or none. -/
theorem orderRow_idle {s : State} {t e op : Nat} (ht : t < numTiles)
    (h : ∀ o, ((s.tile t).engine e).exec = some o → ordOpcode o ≠ op) (ups : List (Nat × Bool)) (work : Tile → Order → OrdDone) :
    orderRow t e op ups work s = .next s := by
  simp only [orderRow]
  rw [if_neg (by omega)]
  split
  · rename_i o ho
    simp [h o ho]
  · rfl

/-! ### SPDM requests (R368) -/

/-- A responder that answers runs the request. -/
theorem spdm_answers {s : State} {f : Nat} (h : f < 514) (he : s.fnExists f = true) (hl : s.lk.state = .ready) (run : Spdm → State → State) :
    spdm f s run = .next (run (s.fn f).spdm s) := by
  simp [spdm, Nat.not_le.mpr h, he, hl]

theorem spdmAt_early {s : State} {f n : Nat} (h : f < 514) (he : s.fnExists f = true) (hl : s.lk.state = .ready)
    (hs : (s.fn f).spdm.stage < n) (run : Spdm → State → State) : spdmAt f n s run = .next (s.spdmErr f .unexpectedRequest) := by
  simp [spdmAt, spdm_answers h he hl, hs]

theorem spdmAt_answers {s : State} {f n : Nat} (h : f < 514) (he : s.fnExists f = true) (hl : s.lk.state = .ready)
    (hs : n ≤ (s.fn f).spdm.stage) (run : Spdm → State → State) : spdmAt f n s run = .next (run (s.fn f).spdm s) := by
  simp [spdmAt, spdm_answers h he hl, Nat.not_lt.mpr hs]

@[simp] theorem State.spdmSay_fn (s : State) (f g : Nat) (a : SpdmAnswer) :
    (s.spdmSay f a).fn g = if g = f then { s.fn f with spdm := { (s.fn f).spdm with out := (s.fn f).spdm.out ++ [a] } } else s.fn g := by
  unfold State.spdmSay State.modFn
  exact Tbl.get_set _ _ _ _ _

/-! ### Lines of the Hold (R230, R234) -/

/-- A line written is not poisoned and bears its stamp; every other line keeps its metadata. -/
@[simp] theorem State.writeLine_meta (s : State) (l k : Nat) (data : Line) (stamp : Word) :
    (s.writeLine l data stamp).lineMeta k = if k = l then { poison := false, stamp := stamp } else s.lineMeta k := by
  unfold State.writeLine State.lineMeta
  exact Tbl.get_put _ _ _ _ _

/-- Bytes outside the line keep their values. -/
theorem State.writeLine_outside (s : State) (l a : Nat) (data : Line) (stamp : Word) (h : a < 64 * l ∨ 64 * l + 64 ≤ a) :
    (s.writeLine l data stamp).hold.read a = s.hold.read a := by
  dsimp only [State.writeLine]
  exact Mem.read_writeLE_outside _ _ _ _ _ h

theorem State.writeLine_wf {s : State} (h : Memory.wf s.hold = true) (l : Nat) (data : Line) (stamp : Word) :
    Memory.wf (s.writeLine l data stamp).hold = true := by
  dsimp only [State.writeLine]
  exact Memory.wf_writeLE h _ _ _

/-! ### The tiles of a domain -/

/-- An update of a domain's tiles reaches those whose home it is. -/
theorem State.modTilesOf_tile (s : State) (c t : Nat) (f : Tile → Tile) :
    (s.modTilesOf c f).tile t = if (s.tile t).home = some c then f (s.tile t) else s.tile t := by
  have hr : Tile.reset.home ≠ some c := by simp [Tile.reset]
  unfold State.modTilesOf State.tile
  dsimp only
  induction s.tiles with
  | nil => simp [Tbl.get, hr]
  | cons p r ih =>
    obtain ⟨i, x⟩ := p
    by_cases hi : i = t
    · by_cases hx : x.home = some c <;> simp [Tbl.get, hi, hx]
    · simp only [beq_iff_eq] at ih
      by_cases hx : x.home = some c <;> simp [Tbl.get, hi, hx, ih]

end Sys2Proof.Machine
end

