-- ==== Sys2Proof/Laws/Frames.lean ====
section
/-! SUPPORT. What the operations shared by several commands leave alone: the events of every kind, settled waiters, refusals at a
wharf, checked lines, and the end of a domain. -/

namespace Sys2Proof.Machine

/-! ### Events of every kind -/

theorem State.portEvent_events (s : State) (p sub : Nat) : EventsOnly s (s.portEvent p sub) := s.postPF_events ..
theorem State.faultEvent_events (s : State) (cls action loc other lanes stall tenants : Nat) :
    EventsOnly s (s.faultEvent cls action loc other lanes stall tenants) := s.postPF_events ..
theorem State.powerEvent_events (s : State) (sub group : Nat) : EventsOnly s (s.powerEvent sub group) := s.postPF_events ..
theorem State.coolantEvent_events (s : State) (sub : Nat) (c : Coolant) : EventsOnly s (s.coolantEvent sub c) := s.postPF_events ..
theorem State.entropyEvent_events (s : State) (sub : Nat) : EventsOnly s (s.entropyEvent sub) := s.postPF_events ..
theorem State.tenantEvent_events (s : State) (sub n gran : Nat) : EventsOnly s (s.tenantEvent sub n gran) := s.postPF_events ..
theorem State.recoveryEvent_events (s : State) (c action vgx vgy cls b last stall : Nat) :
    EventsOnly s (s.recoveryEvent c action vgx vgy cls b last stall) := s.postTenant_events ..
theorem State.profileEvent_events (s : State) (sub applied source named : Nat) : EventsOnly s (s.profileEvent sub applied source named) :=
  s.postPF_events ..
theorem State.calEvent_events (s : State) (sub n : Nat) : EventsOnly s (s.calEvent sub n) := s.postPF_events ..
theorem State.requalEvent_events (s : State) (sub : Nat) : EventsOnly s (s.requalEvent sub) := s.postPF_events ..
theorem State.loopEvent_events (s : State) (ten sub l stream cause batch : Nat) : EventsOnly s (s.loopEvent ten sub l stream cause batch) :=
  s.postTenant_events ..
theorem State.linkEvent_events (s : State) (l sub : Nat) : EventsOnly s (s.linkEvent l sub) :=
  .trans (.foldl (fun t _ => t.postTenant_events ..) _ _) (State.postPF_events ..)
theorem State.thermalEvent_events (s : State) (sub unit : Nat) (reading : Int) (step : Nat) (group : Option Nat) :
    EventsOnly s (s.thermalEvent sub unit reading step group) := by
  unfold State.thermalEvent
  dsimp only
  cases group with
  | none => exact State.postPF_events ..
  | some g => exact .trans (State.postPF_events ..) (.foldl (fun t _ => t.postTenant_events ..) _ _)
theorem State.capChange_events (s : State) (num : Nat) : EventsOnly s (s.capChange num) :=
  .foldl (fun t f => .setFn t f _) _ _
theorem State.capChangeAll_events (s : State) : EventsOnly s s.capChangeAll := by
  unfold State.capChangeAll
  exact .foldl (fun t n => t.capChange_events n) _ _
theorem State.eqFlush_events (s : State) (f : Nat) : EventsOnly s (s.eqFlush f) := by
  unfold State.eqFlush
  dsimp only
  split
  · exact .refl s
  · split
    · exact .refl s
    · exact .trans (State.eqWrite_events ..) (.setFn ..)

/-! ### What events leave in the block -/

section
variable {s u : State} (h : EventsOnly s u)
include h
theorem EventsOnly.tile (t : Nat) : u.tile t = s.tile t := by obtain ⟨_, _, rfl⟩ := h; rfl
theorem EventsOnly.router (t : Nat) : u.router t = s.router t := by obtain ⟨_, _, rfl⟩ := h; rfl
theorem EventsOnly.ctx (c : Nat) : u.ctx c = s.ctx c := by obtain ⟨_, _, rfl⟩ := h; rfl
theorem EventsOnly.tenant (n : Nat) : u.tenant n = s.tenant n := by obtain ⟨_, _, rfl⟩ := h; rfl
theorem EventsOnly.wharf (g : Nat) : u.wharf g = s.wharf g := by obtain ⟨_, _, rfl⟩ := h; rfl
theorem EventsOnly.stack (k : Nat) : u.stack k = s.stack k := by obtain ⟨_, _, rfl⟩ := h; rfl
theorem EventsOnly.port (p : Nat) : u.port p = s.port p := by obtain ⟨_, _, rfl⟩ := h; rfl
theorem EventsOnly.loop (l : Nat) : u.loop l = s.loop l := by obtain ⟨_, _, rfl⟩ := h; rfl
theorem EventsOnly.hold : u.hold = s.hold := by obtain ⟨_, _, rfl⟩ := h; rfl
theorem EventsOnly.fabric : u.fabric = s.fabric := by obtain ⟨_, _, rfl⟩ := h; rfl
theorem EventsOnly.power : u.power = s.power := by obtain ⟨_, _, rfl⟩ := h; rfl
theorem EventsOnly.boot : u.boot = s.boot := by obtain ⟨_, _, rfl⟩ := h; rfl
theorem EventsOnly.nv : u.nv = s.nv := by obtain ⟨_, _, rfl⟩ := h; rfl
theorem EventsOnly.pending : u.pending = s.pending := by obtain ⟨_, _, rfl⟩ := h; rfl
theorem EventsOnly.now : u.now = s.now := by obtain ⟨_, _, rfl⟩ := h; rfl
end

/-! ### Waiters, refusals and lines -/

/-- Settling everything that waits on a domain touches result slots alone. -/
theorem State.abortWaiters_events (s : State) (c : Nat) : EventsOnly s (s.abortWaiters c) := by
  unfold State.abortWaiters
  dsimp only
  repeat' split
  all_goals
    repeat first
      | exact .refl s
      | refine EventsOnly.trans ?_ (State.settle_events ..)
      | refine EventsOnly.trans ?_ (EventsOnly.foldl (fun t _ => t.settle_events ..) _ _)

/-- A refusal at wharf `g` notes itself there and reports itself. -/
theorem State.wharfRefuse_changes (s : State) (g stream cause loff : Nat) :
    EventsOnly (s.modWharf g (fun w => w.note stream cause loff)) (s.wharfRefuse g stream cause loff) := by
  unfold State.wharfRefuse
  dsimp only
  split
  · exact State.postTenant_events ..
  · exact .refl _

/-- A stack's failure changes the stacks, its quadrant and the provider's events alone (R235, R442). -/
theorem State.failStack_only (s : State) (k : Nat) : ∃ t q, EventsOnly { s with stackTbl := t, quadrants := q } (s.failStack k) := by
  have fold : ∀ (f : Nat → Stack → Stack) (l : List Nat) (s : State),
      ∃ t, l.foldl (fun (s : State) i => s.setStack (8 * (k / 8) + i) (f i (s.stack (8 * (k / 8) + i)))) s = { s with stackTbl := t } := by
    intro f l
    induction l with
    | nil => exact fun s => ⟨s.stackTbl, rfl⟩
    | cons i l ih => exact fun s => (ih (s.setStack _ _)).imp (fun _ h => h)
  unfold State.failStack
  dsimp only
  split
  · exact ⟨s.stackTbl, s.quadrants, .refl s⟩
  · obtain ⟨t, h⟩ := fold (fun _ u => { u with degraded := true, rebuilding := (Tbl.get {} s.quadrants (k / 8)).failed.isEmpty
                                               status := u.status ||| 1#4 }) (List.range 8)
      { s with quadrants := s.quadrants.set (k / 8) { Tbl.get {} s.quadrants (k / 8) with
        failed := (Tbl.get {} s.quadrants (k / 8)).failed ++ [k % 8] } }
    rw [h]
    exact ⟨_, _, State.faultEvent_events ..⟩

/-- Counting a rebuilt line leaves the Hold's bytes. -/
theorem State.countRebuilt_hold (s : State) (k : Nat) : (s.countRebuilt k).hold = s.hold := by
  unfold State.countRebuilt
  dsimp only
  split
  · obtain ⟨_, _, h⟩ := (s.modStack k _).failStack_only k
    exact h.hold
  · rfl

/-- A check that leaves no error pattern in a line may count an error or poison the line; the bytes stay. -/
theorem State.checkLine_hold (s : State) (l err : Nat) (h : err < 4) : (s.checkLine l err).hold = s.hold := by
  have hs : s.slipped l err = s := if_pos h
  unfold State.checkLine
  rw [hs]
  split
  · rfl
  · split
    · rfl
    · rfl
    · split
      · exact s.countRebuilt_hold _
      · rfl

/-- Without an error pattern the verdict on a line is what its check is told. -/
theorem State.verdict_small (s : State) (l err : Nat) (h : err < 4) : s.verdict l err = err := by
  unfold State.verdict
  rw [if_pos (Or.inl h)]
  exact Nat.mod_eq_of_lt h

/-- Measurements taken anew are all that measuring changes (R369). -/
theorem State.measureTenant_only (s : State) (n : Nat) : ∃ l, s.measureTenant n = s.setTenant n { s.tenant n with meas5 := l } := ⟨_, rfl⟩
theorem State.measureRegion_only (s : State) (n : Nat) : ∃ l, s.measureRegion n = s.setTenant n { s.tenant n with meas6 := l } := ⟨_, rfl⟩

/-- Closing the merge entries of lines that were written touches the stacks' tables alone (R228, R261). -/
theorem State.closeRead_only (s : State) (lo n : Nat) : ∃ t, s.closeRead lo n = { s with stackTbl := t } := ⟨_, rfl⟩

/-- Keeping the committed content of lines leaves the Hold as it is (R274). -/
@[simp] theorem State.keepOld_hold (s : State) (c i lo n : Nat) : (s.keepOld c i lo n).hold = s.hold := rfl

/-- What an SPDM answer that needs random bytes can come to: made, refused, or waiting (R295, R370). -/
theorem State.spdmAsk_cases (s : State) (f : Nat) (need : SpdmNeed) :
    (s.drawNow need.pr = .served ∧ s.spdmAsk f need = s.spdmServe f need) ∨
    (s.drawNow need.pr = .waits ∧ s.entropy.st = .restarting ∧ s.spdmAsk f need = s.spdmErr f .busy) ∨
    (s.drawNow need.pr = .waits ∧ s.entropy.st ≠ .restarting ∧ s.spdmAsk f need = s.drbgWait (.spdm f need) need.pr) ∨
    (s.drawNow need.pr = .fails ∧ s.spdmAsk f need = s.spdmEntropy f) := by
  unfold State.spdmAsk
  cases h : s.drawNow need.pr <;> simp
  by_cases hr : s.entropy.st = .restarting <;> simp [hr]

/-- ABORTED: the domain's tiles execute nothing, and nothing of it is staged, held or gathered. -/
theorem State.enterAborted_ctx (s : State) (c : Nat) : ((s.enterAborted c).ctx c).state = .aborted ∧
    ((s.enterAborted c).ctx c).staged = none ∧ ((s.enterAborted c).ctx c).release = none ∧ ((s.enterAborted c).ctx c).arrivals = [] := by
  unfold State.enterAborted
  dsimp only
  rw [(State.domainEvent_events ..).ctx]
  have h (u : State) (f : Tile → Tile) : (u.modTilesOf c f).ctx c = u.ctx c := rfl
  rw [h]
  simp [State.modCtx]

theorem State.enterAborted_other (s : State) (c d : Nat) (hd : d ≠ c) : (s.enterAborted c).ctx d = s.ctx d := by
  unfold State.enterAborted
  dsimp only
  rw [(State.domainEvent_events ..).ctx]
  have h (u : State) (f : Tile → Tile) : (u.modTilesOf c f).ctx d = u.ctx d := rfl
  rw [h]
  simp only [State.modCtx, State.setCtx_ctx, hd, if_false]
  exact (State.abortWaiters_events ..).ctx d

end Sys2Proof.Machine
end

