-- ==== Sys2Proof/Tests/Slice0.lean ====
section
/-! SUPPORT. Tests: commands on small states with the results that the spec gives, ill-formed commands, and for every statement
that has hypotheses a state and operands that meet them. -/

namespace Sys2Proof.Tests

open Sys2Proof Sys2Proof.Machine

section

set_option Elab.async false

/-! ### Ill-formed commands: one for each check of WellFormed, refused by it and answered with a fault -/

def refusedBy (i : Instr) : Bool := !i.wf && (match exec i State.reset with
  | .fault .noSuchUnit => true
  | _ => false)

theorem test_wf_tile : refusedBy (.addi 9216) = true ∧ refusedBy (.flitCommit 9216 0) = true := by decide
theorem test_wf_engine : refusedBy (.orderBegin 0 3 false) = true := by decide
theorem test_wf_granule : refusedBy (.pullGrant 576) = true ∧ refusedBy (.rdRpl 0 576) = true := by decide
theorem test_wf_stack : refusedBy (.mergeWindowEnd 32) = true := by decide
theorem test_wf_endpoint : refusedBy (.bargeSend 627 0 0 0) = true := by decide
theorem test_wf_context : refusedBy (.lockFire 1024) = true := by decide
theorem test_wf_port : refusedBy (.gatherMarker 56) = true := by decide
theorem test_wf_function : refusedBy (.hello 514) = true ∧ refusedBy (.doorbell 514 1) = true := by decide

/-! ### Scalar cores -/

/-- The state after a command, where it is answered by one. -/
def after (i : Instr) (s : State) (p : State → Bool) : Bool := match exec i s with
  | .next u => p u
  | _ => false

/-- A tile of context 0 whose core is about to execute word `w`, with g1, g2 and f1, f2 as given. -/
def core (w : Nat) (g : Nat × Nat) (f : Nat × Nat) : Tile :=
  { core := { act := .run, g := ((Vector.replicate 32 0#32).set 1 (BitVec.ofNat 32 g.1)).set 2 (BitVec.ofNat 32 g.2)
              f := ((Vector.replicate 32 0#64).set 1 (BitVec.ofNat 64 f.1)).set 2 (BitVec.ofNat 64 f.2) }
    ibuf := [(0, BitVec.ofNat 32 w)], home := some 0 }

/-- The block with tile 0 as given and its die's clock running, in a RUNNING domain. -/
def onTile (t : Tile) : State :=
  { State.reset with tiles := [(0, t)], dies := [(0, { state := .running })], ctxs := [(0, { state := .running, loaded := true })] }

/-- Opcode `op`, RD 3, RA 1, RB 2 and low bits `low` (R160). -/
def rrr (op low : Nat) : Nat := op * 2 ^ 25 + 3 * 2 ^ 20 + 1 * 2 ^ 15 + 2 * 2 ^ 10 + low
/-- Opcode `op`, RD 3, RA 1 and an immediate. -/
def rri (op imm : Nat) : Nat := op * 2 ^ 25 + 3 * 2 ^ 20 + 1 * 2 ^ 15 + imm

/-- The core of tile 0 is ready for the word's opcode and the command leaves `v` in g3. -/
def givesG (i : Instr) (w : Nat) (g f : Nat × Nat) (v : Nat) : Bool :=
  Ready (onTile (core w g f)) 0 (w / 2 ^ 25) && after i (onTile (core w g f)) (fun u => (u.tile 0).gr 3 == BitVec.ofNat 32 v && (u.tile 0).core.pc == 1#12)
/-- The same of f3. -/
def givesF (i : Instr) (w : Nat) (g f : Nat × Nat) (v : Nat) : Bool :=
  Ready (onTile (core w g f)) 0 (w / 2 ^ 25) && after i (onTile (core w g f)) (fun u => (u.tile 0).fr 3 == BitVec.ofNat 64 v && (u.tile 0).core.pc == 1#12)

theorem test_nop : Ready (onTile (core 0x02000000 (5, 7) (0, 0))) 0 0x01 = true ∧
    after (.nop 0) (onTile (core 0x02000000 (5, 7) (0, 0))) (fun u => (u.tile 0).core.pc == 1#12) = true := by decide
theorem test_alu : givesG (.alu 0) (rrr 2 0x000) (0xFFFFFFFF, 2) (0, 0) 1 ∧ givesG (.alu 0) (rrr 2 0x007) (0x80000000, 4) (0, 0) 0xF8000000 ∧
    givesG (.alu 0) (rrr 2 0x011) (0xFFFFFFFF, 2) (0, 0) 0xFFFFFFFF := by decide
/-- R162's corners. -/
theorem test_integer_division : givesG (.alu 0) (rrr 2 0x014) (9, 0) (0, 0) 0xFFFFFFFF ∧ givesG (.alu 0) (rrr 2 0x016) (9, 0) (0, 0) 9 ∧
    givesG (.alu 0) (rrr 2 0x014) (0x80000000, 0xFFFFFFFF) (0, 0) 0x80000000 ∧ givesG (.alu 0) (rrr 2 0x016) (0x80000000, 0xFFFFFFFF) (0, 0) 0 ∧
    givesG (.alu 0) (rrr 2 0x014) (0xFFFFFFF9, 2) (0, 0) 0xFFFFFFFD ∧ givesG (.alu 0) (rrr 2 0x017) (7, 4) (0, 0) 3 ∧
    givesG (.alu 0) (rrr 2 0x015) (7, 2) (0, 0) 3 := by decide
theorem test_addi : givesG (.addi 0) (rri 3 0x7FFF) (5, 0) (0, 0) 4 := by decide
theorem test_andi : givesG (.andi 0) (rri 4 0x7FFF) (0xFFFFFFFF, 0) (0, 0) 0x7FFF := by decide
theorem test_ori : givesG (.ori 0) (rri 5 0x4000) (1, 0) (0, 0) 0x4001 := by decide
theorem test_xori : givesG (.xori 0) (rri 6 3) (1, 0) (0, 0) 2 := by decide
theorem test_slti : givesG (.slti 0) (rri 7 0) (0xFFFFFFFF, 0) (0, 0) 1 := by decide
theorem test_sltiu : givesG (.sltiu 0) (rri 8 0x7FFF) (5, 0) (0, 0) 1 := by decide
theorem test_shi : givesG (.shi 0) (rri 9 31) (1, 0) (0, 0) 0x80000000 ∧ givesG (.shi 0) (rri 9 (1 * 8192 + 4)) (0xF0, 0) (0, 0) 0xF ∧
    givesG (.shi 0) (rri 9 (2 * 8192 + 4)) (0x80000000, 0) (0, 0) 0xF8000000 := by decide
theorem test_lui : givesG (.lui 0) (rri 0xA 1) (0, 0) (0, 0) (0x08001 * 4096) := by decide

/-- A branch compares g3 with g1, a jump links in g3: the core ends at `pc`. -/
def goesTo (i : Instr) (w : Nat) (g : Nat × Nat) (pc : Nat) : Bool :=
  Ready (onTile (core w g (0, 0))) 0 (w / 2 ^ 25) && after i (onTile (core w g (0, 0))) (fun u => (u.tile 0).core.pc == BitVec.ofNat 12 pc)

/-- Branch words: RA is g1 in bits 24:20, RB is g2 in bits 19:15. -/
def br (op imm : Nat) : Nat := op * 2 ^ 25 + 1 * 2 ^ 20 + 2 * 2 ^ 15 + imm
theorem test_branches : goesTo (.beq 0) (br 0x20 0x7FFF) (5, 5) 4095 ∧ goesTo (.bne 0) (br 0x21 9) (5, 5) 1 ∧
    goesTo (.blt 0) (br 0x22 9) (0xFFFFFFFF, 0) 9 ∧ goesTo (.bge 0) (br 0x23 9) (0, 0) 9 ∧ goesTo (.bltu 0) (br 0x24 9) (0xFFFFFFFF, 0) 1 ∧
    goesTo (.bgeu 0) (br 0x25 9) (0xFFFFFFFF, 0) 9 := by decide
theorem test_jumps : goesTo (.jal 0) (0x26 * 2 ^ 25 + 3 * 2 ^ 20 + 100) (0, 0) 100 ∧ goesTo (.jalr 0) (rri 0x27 5) (10, 0) 15 := by decide

/-- A tile whose bytes 64 to 71 are 0x81 to 0x88. -/
def withMem (t : Tile) : Tile := { t with mem := t.mem.writeLE 64 8 0x8887868584838281 }
def loadsG (i : Instr) (w : Nat) (g v : Nat) : Bool :=
  let s := onTile (withMem (core w (g, 0) (0, 0)))
  Ready s 0 (w / 2 ^ 25) && ((s.tile 0).checkWord (g / 8)).2 == .good && after i s (fun u => (u.tile 0).gr 3 == BitVec.ofNat 32 v)
def loadsF (i : Instr) (w : Nat) (g v : Nat) : Bool :=
  let s := onTile (withMem (core w (g, 0) (0, 0)))
  Ready s 0 (w / 2 ^ 25) && ((s.tile 0).checkWord (g / 8)).2 == .good && after i s (fun u => (u.tile 0).fr 3 == BitVec.ofNat 64 v)
theorem test_loads : loadsG (.lb 0 []) (rri 0x10 0) 65 0xFFFFFF82 ∧ loadsG (.lbu 0 []) (rri 0x11 0) 65 0x82 ∧
    loadsG (.lh 0 []) (rri 0x12 0) 66 0xFFFF8483 ∧ loadsG (.lhu 0 []) (rri 0x13 0) 66 0x8483 ∧ loadsG (.lw 0 []) (rri 0x14 0) 68 0x88878685 ∧
    loadsF (.flw 0 []) (rri 0x15 0) 68 0x88878685 ∧ loadsF (.fld 0 []) (rri 0x16 0) 64 0x8887868584838281 := by decide
/-- The last byte of tile memory. -/
theorem test_load_at_the_top : loadsG (.lbu 0 []) (rri 0x11 0) (2 ^ 22 - 1) 0 := by decide

/-- A store of g3 or f3 through g1. -/
def stores (i : Instr) (w : Nat) (g a : Nat) (b : Byte) : Bool :=
  let t := withMem (core w (g, 0) (0, 0))
  let t := (t.setG 3 0xA4A3A2A1#32).setF 3 0xA8A7A6A5A4A3A2A1#64
  Ready (onTile t) 0 (w / 2 ^ 25) && Memory.wf t.mem && (t.checkWord (g / 8)).2 == .good && after i (onTile t) (fun u => (u.tile 0).mem.read a == b && Memory.wf (u.tile 0).mem)
theorem test_stores : stores (.sb 0 []) (rri 0x18 0) 65 65 0xA1#8 ∧ stores (.sb 0 []) (rri 0x18 0) 65 66 0x83#8 ∧ stores (.sh 0 []) (rri 0x19 0) 66 67 0xA2#8 ∧
    stores (.sw 0 []) (rri 0x1A 0) 68 71 0xA4#8 ∧ stores (.fsw 0 []) (rri 0x1B 0) 68 71 0xA4#8 ∧ stores (.fsd 0) (rri 0x1C 0) 64 71 0xA8#8 := by decide

/-- A fault of tile 0's core: its cause and address. -/
def faults (i : Instr) (s : State) (op cause addr : Nat) : Bool :=
  Ready s 0 op && after i s (fun u => (u.tile 0).faulted && bits (u.tile 0).tileFault.toNat 0 8 == cause && (u.tile 0).faultAddr == BitVec.ofNat 64 addr)
theorem test_memory_faults : faults (.lw 0 []) (onTile (core (rri 0x14 0) (2 ^ 22, 0) (0, 0))) 0x14 3 (2 ^ 22) ∧
    faults (.lw 0 []) (onTile (core (rri 0x14 0) (2, 0) (0, 0))) 0x14 2 2 ∧ faults (.sw 0 []) (onTile (core (rri 0x1A 0) (2, 0) (0, 0))) 0x1A 2 2 ∧
    faults (.lb 0 [(8, true)]) (onTile (withMem (core (rri 0x10 0) (64, 0) (0, 0)))) 0x10 4 64 := by decide
/-- A tile that has not stopped, for the record of its fault (R95). -/
theorem test_tile_fault_record : ((onTile (core 0 (0, 0) (0, 0))).tile 0).faulted = false := by decide

theorem test_float_arithmetic : givesF (.fadd 0) (rrr 0x30 0) (0, 0) (0x3F800000, 0x40000000) 0x40400000 ∧
    givesF (.fsub 0) (rrr 0x31 0) (0, 0) (0x3F800000, 0x3F800000) 0 ∧ givesF (.fmul 0) (rrr 0x32 0) (0, 0) (0x40000000, 0x40400000) 0x40C00000 ∧
    givesF (.ffma 0) (rrr 0x33 (1 * 32)) (0, 0) (0x40000000, 0x40400000) 0x41000000 ∧
    givesF (.ffnma 0) (rrr 0x34 (1 * 32)) (0, 0) (0x40000000, 0x40400000) 0xC0800000 ∧
    givesF (.fdiv 0) (rrr 0x35 0) (0, 0) (0x3F800000, 0x40400000) 0x3EAAAAAB ∧
    givesF (.fmin 0) (rrr 0x37 0) (0, 0) (0xBF800000, 0x3F800000) 0xBF800000 ∧ givesF (.fmax 0) (rrr 0x38 0) (0, 0) (0xBF800000, 0x3F800000) 0x3F800000 := by decide
theorem test_square_root : givesF (.fsqrt 0) (rri 0x36 0) (0, 0) (0x40800000, 0) 0x40000000 := by decide +kernel
theorem test_float_moves : givesF (.fcvt 0) (rri 0x39 2) (0, 0) (0x3F800000, 0) 0x3FF0000000000000 ∧ givesG (.fcmp 0) (rrr 0x3A (1 * 32)) (0, 0) (0x3F800000, 0x40000000) 1 ∧
    givesG (.fcvti 0) (rri 0x3B 4) (0, 0) (0x40200000, 0) 2 ∧ givesF (.fcvtf 0) (rri 0x3C 0) (0xFFFFFFFF, 0) (0, 0) 0xBF800000 ∧
    givesF (.fmvgf 0) (rri 0x3D 1) (0x12345678, 0) (0, 0) 0x1234567800000000 ∧ givesG (.fmvfg 0) (rri 0x3E 1) (0, 0) (0xABCD000000000000, 0) 0xABCD0000 := by decide

/-- Control registers: GEN_IN at 0xC10 of the tile, an unaligned offset, and an offset beyond the block. -/
theorem test_control_registers : givesG (.crrl 0) (rri 0x50 0) (0xC10, 0) (0, 0) 0 ∧ givesG (.crrh 0) (rri 0x51 0) (0xC10, 0) (0, 0) 0 ∧
    givesF (.fcrr 0) (rri 0x54 0) (0xC10, 0) (0, 0) 0 ∧
    after (.crwl 0) (onTile ((core (rri 0x52 0) (0xC10, 0) (0, 0)).setG 3 7#32)) (fun u => (u.tile 0).gen.genIn == 7#64) ∧
    after (.crwh 0) (onTile ((core (rri 0x53 0) (0xC10, 0) (0, 0)).setG 3 7#32)) (fun u => (u.tile 0).gen.genIn == 0x700000000#64) ∧
    after (.fcrw 0) (onTile ((core (rri 0x55 0) (0xC10, 0) (0, 0)).setF 3 9#64)) (fun u => (u.tile 0).gen.genIn == 9#64) ∧
    Ready (onTile (core (rri 0x55 0) (0xC10, 0) (0, 0))) 0 0x55 ∧ Ready (onTile (core (rri 0x52 0) (0xC10, 0) (0, 0))) 0 0x52 ∧ Ready (onTile (core (rri 0x53 0) (0xC10, 0) (0, 0))) 0 0x53 := by decide
theorem test_control_register_faults : faults (.crrl 0) (onTile (core (rri 0x50 0) (0x4000, 0) (0, 0))) 0x50 3 0x4000 ∧
    faults (.fcrw 0) (onTile (core (rri 0x55 0) (0xC14, 0) (0, 0))) 0x55 2 0xC14 := by decide
theorem test_special_registers : givesG (.srr 0) (0x56 * 2 ^ 25 + 3 * 2 ^ 20) (0, 0) (0, 0) 0 ∧ givesG (.srr 0) (0x56 * 2 ^ 25 + 3 * 2 ^ 20 + 1) (0, 0) (0, 0) 0 ∧
    givesG (.srr 0) (0x56 * 2 ^ 25 + 3 * 2 ^ 20 + 2) (0, 0) (0, 0) 0 ∧ givesG (.srr 0) (0x56 * 2 ^ 25 + 3 * 2 ^ 20 + 3) (0, 0) (0, 0) 0 ∧
    goesTo (.srw 0) (0x57 * 2 ^ 25 + 3 * 2 ^ 20) (0, 0) 1 ∧ goesTo (.srw 0) (0x57 * 2 ^ 25 + 3 * 2 ^ 20 + 1) (0, 0) 1 := by decide

/-- Tile 0 with handle 5 bound, its count 4. -/
def synced (w : Nat) : Tile := { core w (0, 0) (0, 0) with sync := [(5, { pool := 0, count := 4 })] }
theorem test_sync : Ready (onTile (synced (0x41 * 2 ^ 25 + 5 * 4096 + 4))) 0 0x41 ∧
    after (.swait 0) (onTile (synced (0x41 * 2 ^ 25 + 5 * 4096 + 4))) (fun u => (u.tile 0).syncCount 5 == 0 && (u.tile 0).core.act == .run) ∧
    after (.swait 0) (onTile (synced (0x41 * 2 ^ 25 + 5 * 4096 + 5))) (fun u => (u.tile 0).syncCount 5 == 4 && (u.tile 0).core.act == .swait 5 5) ∧
    Ready (onTile (synced (0x42 * 2 ^ 25 + 5 * 4096 + 4095))) 0 0x42 ∧
    after (.ssig 0) (onTile (synced (0x42 * 2 ^ 25 + 5 * 4096 + 4095))) (fun u => (u.tile 0).syncCount 5 == 4099) ∧
    Ready (onTile (synced (0x43 * 2 ^ 25 + 3 * 2 ^ 20 + 5 * 4096 + 5))) 0 0x43 ∧
    after (.stry 0) (onTile (synced (0x43 * 2 ^ 25 + 3 * 2 ^ 20 + 5 * 4096 + 5))) (fun u => (u.tile 0).syncCount 5 == 4 && (u.tile 0).gr 3 == 0#32) := by decide
theorem test_unbound_handle : faults (.swait 0) (onTile (core (0x41 * 2 ^ 25 + 5 * 4096) (0, 0) (0, 0))) 0x41 5 0 ∧
    faults (.ssig 0) (onTile (core (0x42 * 2 ^ 25 + 5 * 4096) (0, 0) (0, 0))) 0x42 5 0 := by decide
/-- AWAIT and ATEST of counter 0 compare modulo 2^32: 0 has reached 0xFFFFFFFF. -/
theorem test_await : goesTo (.await 0) (0x44 * 2 ^ 25 + 1 * 2 ^ 15) (0xFFFFFFFF, 0) 1 ∧
    after (.await 0) (onTile (core (0x44 * 2 ^ 25 + 1 * 2 ^ 15) (1, 0) (0, 0))) (fun u => (u.tile 0).core.act == .await 0 1) ∧
    givesG (.atest 0) (0x45 * 2 ^ 25 + 3 * 2 ^ 20 + 1 * 2 ^ 15) (1, 0) (0, 0) 0 := by decide
/-- A core that stalls. -/
def stalled (a : Activity) : Tile := let t := synced 0; { t with core := { t.core with act := a } }
theorem test_stalls_end : after (.swaitSatisfied 0) (onTile (stalled (.swait 5 4))) (fun u => (u.tile 0).syncCount 5 == 0 && (u.tile 0).core.act == .run) ∧
    (onTile (stalled (.swait 5 4))).enginesRun 0 ∧ 4 ≤ (stalled (.swait 5 4)).avail 3 5 ∧
    after (.awaitSatisfied 0) (onTile (stalled (.await 0 0))) (fun u => (u.tile 0).core.act == .run) := by decide

/-- ISS enters the 16 bytes at its address into the queue; a full queue stalls the core; ORDER_ENQUEUE ends the stall. -/
theorem test_iss : Ready (onTile (withMem (core (0x40 * 2 ^ 25 + 1 * 2 ^ 15) (64, 0) (0, 0)))) 0 0x40 ∧
    after (.iss 0 []) (onTile (withMem (core (0x40 * 2 ^ 25 + 1 * 2 ^ 15) (64, 0) (0, 0))))
      (fun u => (u.tile 0).mxe.queue == [0x8887868584838281#128] && (u.tile 0).core.act == .run) ∧
    after (.iss 0 []) (onTile { core (0x40 * 2 ^ 25 + 1 * 2 ^ 15) (64, 0) (0, 0) with mxe := { queue := List.replicate 16 0#128 } })
      (fun u => (u.tile 0).core.act == .issStall 0 64) ∧
    after (.orderEnqueue 0 []) (onTile (withMem (stalled (.issStall 2 64)))) (fun u => (u.tile 0).xe.queue == [0x8887868584838281#128]) := by decide
theorem test_ifill : Ready (onTile (withMem (core (0x48 * 2 ^ 25 + 3 * 2 ^ 20 + 1 * 2 ^ 15 + 1 * 1024) (64, 0) (0, 0)))) 0 0x48 ∧
    after (.ifill 0 []) (onTile (withMem ((core (0x48 * 2 ^ 25 + 3 * 2 ^ 20 + 1 * 2 ^ 15 + 1 * 1024) (64, 0) (0, 0)).setG 3 4080#32)))
      (fun u => (u.tile 0).instrAt 4080 == 0x84838281#32 && (u.tile 0).instrAt 4081 == 0x88878685#32 && (u.tile 0).instrAt 4095 == 0#32) := by decide
theorem test_lock : Ready (onTile (core (0x49 * 2 ^ 25) (0, 0) (0, 0))) 0 0x49 ∧ (onTile (core (0x49 * 2 ^ 25) (0, 0) (0, 0))).member 0 ∧
    after (.lock 0) (onTile (core (0x49 * 2 ^ 25) (0, 0) (0, 0))) (fun u => (u.tile 0).arrived && (u.ctx 0).arrivals.length == 1) ∧
    faults (.lock 0) { onTile (core (0x49 * 2 ^ 25) (0, 0) (0, 0)) with ctxs := [] } 0x49 1 0 := by decide
theorem test_brk : Ready (onTile (core (0x4A * 2 ^ 25) (0, 0) (0, 0))) 0 0x4A ∧
    after (.brk 0) (onTile (core (0x4A * 2 ^ 25) (0, 0) (0, 0))) (fun u => (u.tile 0).core.pc == 1#12 && (u.tile 0).core.stop == none) ∧
    after (.brk 0) { onTile (core (0x4A * 2 ^ 25) (0, 0) (0, 0)) with granules := [(0, .owned 0)], tenants := [(0, { st := .active, width := 1, height := 1 })] }
      (fun u => (u.tile 0).core.stop == some .brk) := by decide
/-- Granule 0 is a region of tenant 0, which holds the debug right. -/
def rightHeld (s : State) : State := { s with granules := [(0, .owned 0)], tenants := [(0, { st := .active, width := 1, height := 1 })] }
theorem test_breakpoint : (core 0x02000000 (0, 0) (0, 0) |> fun t => { t with brk := [(3, 0)] : Tile }).breaks ∧
    after (.breakpointStop 0) (rightHeld (onTile { core 0x02000000 (0, 0) (0, 0) with brk := [(3, 0)] })) (fun u => (u.tile 0).core.stop == some .breakpoint && (u.tile 0).core.pc == 0#12) := by decide
theorem test_illegal : (onTile (core 0 (0, 0) (0, 0))).coreReady 0 ∧ legal 0#32 = false ∧
    after (.illegalInstruction 0) (onTile (core 0 (0, 0) (0, 0))) (fun u => (u.tile 0).faulted && bits (u.tile 0).tileFault.toNat 0 8 == 1) := by decide

/-! ### Orders -/

/-- Tile 0 with an engine as given, handle 5 bound with count 4. -/
def engaged (e : Nat) (en : Engine) : Tile := (synced 0).setEngine e en

/-- An order of opcode `op` that waits for 4 of handle 5 and signals 3 to it, with operands `x` (R72). -/
def order (op x : Nat) : Order := BitVec.ofNat 128 (op + 2 ^ 8 + 2 ^ 9 + 5 * 2 ^ 16 + 4 * 2 ^ 24 + 5 * 2 ^ 36 + 3 * 2 ^ 44 + x * 2 ^ 64)

theorem test_order_leaves_head : after (.orderLeavesHead 0 0) (onTile (engaged 0 { queue := [order 0 0] }))
      (fun u => (u.tile 0).mxe.pending == some (order 0 0) && (u.tile 0).syncCount 5 == 0 && (u.tile 0).mxe.taken == 1) ∧
    (engaged 0 { queue := [order 0 0] }).headerCheck 0 (order 0 0) = none ∧ (onTile (engaged 0 { queue := [order 0 0] })).enginesRun 0 = true ∧
    ordWN (order 0 0) ≤ (engaged 0 { queue := [order 0 0] }).avail 0 (ordWObj (order 0 0)) := by decide
theorem test_order_waits : (engaged 0 { queue := [order 0 0 + 0x1000000#128] }).headerCheck 0 (order 0 0 + 0x1000000#128) = none ∧
    (engaged 0 { queue := [order 0 0 + 0x1000000#128] }).avail 0 5 < ordWN (order 0 0 + 0x1000000#128) ∧
    after (.orderLeavesHead 0 0) (onTile (engaged 0 { queue := [order 0 0 + 0x1000000#128] })) (fun u => (u.tile 0).mxe.queue.length == 1) := by decide
theorem test_order_header_fault : (engaged 0 { queue := [order 7 0] }).headerCheck 0 (order 7 0) = some { cause := cOrderInvalid } ∧
    after (.orderLeavesHead 0 0) (onTile (engaged 0 { queue := [order 7 0] })) (fun u => (u.tile 0).faulted) := by decide
theorem test_order_begins : after (.orderBegin 0 2 false) (onTile (engaged 2 { pending := some (order 0 0) })) (fun u => (u.tile 0).xe.exec == some (order 0 0)) ∧
    operandCheck 2 ((engaged 2 { pending := some (order 0 0) }).setEngine 2 { exec := some (order 0 0) }) Router.reset (order 0 0) = none ∧
    after (.orderBegin 0 2 false) (onTile (engaged 2 { pending := some (order 0 1) })) (fun u => (u.tile 0).faulted) := by decide
/-- An LDB into buffer 0 waits for the signal of an MMA that reads it; one into buffer 1 does not. -/
theorem test_order_interlock : let t := fun (buf : BitVec 128) => engaged 0 { pending := some (order 2 0 ||| (buf <<< 68)), owed := [order 3 0] }
    (t 0).interlocked 0 (order 2 0) = true ∧ after (.orderBegin 0 0 false) (onTile (t 0)) (fun u => (u.tile 0).mxe.exec.isNone && !(u.tile 0).faulted) ∧
    (t 1).interlocked 0 (order 2 0 ||| (1 <<< 68)) = false := by decide
theorem test_order_signals : after (.orderSignal 0 1) (onTile (engaged 1 { owed := [order 0 0] })) (fun u => (u.tile 0).syncCount 5 == 7 && (u.tile 0).vxe.orders == 1#32) ∧
    after (.orderSignal 0 1) (onTile { engaged 1 { owed := [order 0 0] } with sync := [(5, { pool := 0, count := 65533 })] })
      (fun u => (u.tile 0).syncCount 5 == 65535 && (u.tile 0).syncOverflow) := by decide

/-- The order of opcode `op` executes on engine `e`: the command ends it. -/
def ends (i : Instr) (e op : Nat) : Bool :=
  let s := onTile (engaged e { exec := some (BitVec.ofNat 128 op) })
  s.enginesRun 0 && after i s (fun u => (((u.tile 0).engine e).exec == none && ((u.tile 0).engine e).owed == [BitVec.ofNat 128 op]) || (u.tile 0).faulted)
theorem test_orders_end : ends (.mxeNop 0) 0 0 ∧ ends (.mxeLdtd 0 []) 0 1 ∧ ends (.mxeStat 0) 0 6 ∧ ends (.vxeNop 0) 1 0 ∧ ends (.vxeLdtd 0 []) 1 1 ∧
    ends (.ldk 0 []) 1 2 ∧ ends (.vxeStat 0) 1 6 ∧ ends (.xeNop 0) 2 0 := by decide +kernel
theorem test_matrix_orders_end : ends (.ldb 0 []) 0 2 ∧ ends (.mma 0 []) 0 3 ∧ ends (.drain 0) 0 4 ∧ ends (.ldacc 0 []) 0 5 := by decide +kernel
theorem test_vector_orders_end : ends (.vew 0 []) 1 0x10 ∧ ends (.vtr 0 []) 1 0x11 ∧ ends (.vred 0 []) 1 0x12 ∧ ends (.vsample 0 []) 1 0x13 ∧ ends (.vrand 0 []) 1 0x14 := by decide +kernel
/-- A read that meets a word that fails its check stops the tile (R91). -/
theorem test_order_read_fails : after (.ldk 0 [(0, true)]) (onTile (engaged 1 { exec := some 2#128 })) (fun u => (u.tile 0).faulted && bits (u.tile 0).tileFault.toNat 0 8 == 4) := by decide +kernel

/-- LDTD of MASK 2 from 64: TD1 takes bytes 96 to 127, TD0 stays; LDK likewise takes VK1 from byte 72. -/
theorem test_loading_orders :
    (let t := { withMem (synced 0) with mem := (withMem (synced 0)).mem.writeLE 72 8 0xC0FFEE }
     (t.readSpan 64 512).2 = none ∧ (workLdk t (BitVec.ofNat 128 (64 * 2 ^ 64 + 2 * 2 ^ 86))).tile.vk[1] = 0xC0FFEE#64 ∧
     (workLdk t (BitVec.ofNat 128 (64 * 2 ^ 64 + 2 * 2 ^ 86))).tile.vk[0] = 0#64) ∧
    ((withMem (synced 0)).readSpan 0 512).2 = none ∧
    (workLdtd 0 (withMem (synced 0)) (BitVec.ofNat 128 (4 * 2 ^ 86))).tile.mtd[2] = 0x8887868584838281#256 ∧
    (workLdtd 0 (withMem (synced 0)) (BitVec.ofNat 128 (4 * 2 ^ 86))).tile.mtd[0] = 0#256 := by decide +kernel
theorem test_stat_order : Memory.wf (engaged 0 { numstat := 5, orders := 9 }).mem = true ∧
    (let u := (workStat 0 (engaged 0 { numstat := 5, orders := 9 }) (BitVec.ofNat 128 (1 * 2 ^ 86))).tile
     u.mem.read 0 = 5#8 ∧ u.mem.read 20 = 9#8 ∧ u.mxe.numstat = 4#8) := by decide +kernel
theorem test_ldb : ∃ u, workLdb (synced 0) (BitVec.ofNat 128 2) = { tile := u } := ⟨_, rfl⟩

/-- TD0 of code 4, buffer 0 loaded with code 4: MMA of one row. -/
def matrix : Tile := { synced 0 with mtd := (Vector.replicate 16 0#256).set 0 (BitVec.ofNat 256 (4 * 2 ^ 22))
                                     buf0 := some { fmt := 4, scaled := false, te := false, t := 0, depth := 64, elems := [], scales := [] } }
/-- MMA, FRESH, set 1, row 255, M 1, PASSES 1. -/
def mma1 : Order := BitVec.ofNat 128 (3 + 2 ^ 56 + (1 * 2 ^ 5 + 255 * 2 ^ 7 + 1 * 2 ^ 15 + 1 * 2 ^ 40) * 2 ^ 64)
theorem test_mma : checkMma matrix mma1 = none ∧ (workMma matrix mma1).bad.isNone = true ∧
    ((workMma matrix mma1).tile.accRow 1 255).hasTag true 0 = true ∧ (workMma matrix mma1).tile.accRow 1 254 = .empty := by decide +kernel
/-- DRAIN of row 3 of set 0, code 1, that clears it. -/
def drained : Tile := { synced 0 with mtd := (Vector.replicate 16 0#256).set 0 (BitVec.ofNat 256 (1 * 2 ^ 22)), acc := [(3, .f32 (List.replicate 32 0x3F800000))] }
def drain1 : Order := BitVec.ofNat 128 (4 + (3 * 2 ^ 6 + 1 * 2 ^ 14 + 1 * 2 ^ 28) * 2 ^ 64)
theorem test_drain : checkDrain drained drain1 = none ∧ (workDrain drained drain1).tile.accRow 0 3 = .empty ∧
    (workDrain drained drain1).tile.mem.readLE 124 4 = 0x3F800000 := by decide +kernel

/-! ### Exchange and routers -/

/-- Tile 0's XE executes order `o`. -/
def sends (o : Nat) (t : Tile) : Tile := t.setEngine 2 { exec := some (BitVec.ofNat 128 o) }
theorem test_sends_begin : after (.send 0) (onTile (sends 0x10 (synced 0))) (fun u => (u.tile 0).sending == some { sent := 0, block := 0 }) ∧
    after (.msend 0) (onTile (sends 0x11 (synced 0))) (fun u => (u.tile 0).sending.isSome) ∧ after (.comb 0) (onTile (sends 0x12 (synced 0))) (fun u => (u.tile 0).sending.isSome) := by decide +kernel
/-- RECV of counter 0 with target 0 ends at once; with target 1 it waits. -/
theorem test_recv : after (.recv 0) (onTile (sends 0x13 (synced 0))) (fun u => (u.tile 0).xe.exec == none && (u.tile 0).xe.owed.length == 1) ∧
    after (.recv 0) (onTile (sends (0x13 + 1 * 2 ^ 72) (synced 0))) (fun u => (u.tile 0).recvWait) ∧
    after (.recvComplete 0) (onTile { sends 0x13 (synced 0) with recvWait := true }) (fun u => (u.tile 0).xe.exec == none && !(u.tile 0).recvWait) := by decide
theorem test_pull : after (.pull 0) (onTile (sends (0x14 + (7 + 2 * 2 ^ 29) * 2 ^ 64) (synced 0))) (fun u => (u.wharf 0).pulls.map WharfPull.moff == [7] && (u.tile 0).xe.exec == none) := by decide

/-- A route of channel 0: unicast, in at the local port, out to the east on lane 0. -/
def routed (e : Nat) (s : State) : State := s.setRouter 0 { s.router 0 with routes := [(0, BitVec.ofNat 128 e)], openMask := 15 }
theorem test_flit_inject :
    let s := routed (1 + 1 * 2 ^ 20 + 4 * 2 ^ 25) (onTile { sends (0x10 + 1 * 2 ^ 113) (synced 0) with sending := some { sent := 0, block := 0 } })
    ((s.router 0).route 0).isSome ∧ (Tbl.get [] (s.router 0).inq 0).length < 8 ∧
    (s.router 0).arrivalDrop 0 { ch := 0, dst := 0, acnt := 0, lane := 0, payload := 0 } = none ∧ ((s.tile 0).readSpan 0 512).2 = none ∧
    after (.flitInject 0 ([], 0)) s (fun u => (u.tile 0).sending == none && (u.tile 0).xe.owed.length == 1 && (Tbl.get [] (u.router 0).inq 0).length == 1) := by decide +kernel

/-- A router of tile 0 with one entry `e` of channel 0, flits `l` in its local input's lane 0 and `n` in the north input's. -/
def router (e : Nat) (l n : List Flit) : State :=
  (onTile (core 0 (0, 0) (0, 0))).setRouter 0 { routes := [(0, BitVec.ofNat 128 e)], openMask := 15, inq := [(0, l), (8, n)], returning := [(16, 2)], used := [(16, 3)] }
def flit1 : Flit := { ch := 0, dst := 2, acnt := 9, lane := 0, payload := 0x3F8000003F800000#512 }
theorem test_credit_return : after (.creditReturn 0 2 0) (router 1 [] []) (fun u => Tbl.get 0 (u.router 0).used 16 == 2 && Tbl.get 0 (u.router 0).returning 16 == 1) := by decide
/-- A flit from the local input to the local commit, to the east, and to a closed port. -/
theorem test_router_forward :
    (bestCand (((router (1 + 1 * 2 ^ 20 + 1 * 2 ^ 25) [flit1] []).router 0).cands 0 |>.filter ((router (1 + 1 * 2 ^ 20 + 1 * 2 ^ 25) [flit1] []).credited 0 0))).isSome ∧
    after (.routerForward 0 0 0 0) (router (1 + 1 * 2 ^ 20 + 1 * 2 ^ 25) [flit1] []) (fun u => (u.router 0).localOut == some (flit1, false, 0)) ∧
    (router (1 + 1 * 2 ^ 20 + 4 * 2 ^ 25) [flit1] []).neighbour 0 2 = some 1 ∧
    (bestCand (((router (1 + 1 * 2 ^ 20 + 4 * 2 ^ 25) [flit1] []).router 0).cands 2 |>.filter ((router (1 + 1 * 2 ^ 20 + 4 * 2 ^ 25) [flit1] []).credited 0 2))).isSome ∧
    after (.routerForward 0 2 0 0) (router (1 + 1 * 2 ^ 20 + 4 * 2 ^ 25) [flit1] []) (fun u => Tbl.get 0 (u.router 0).used 16 == 4 && (u.router 1).status != 0#5) ∧
    after (.routerForward 0 2 0 0) ((router (1 + 1 * 2 ^ 20 + 4 * 2 ^ 25) [flit1] []).setRouter 0 { (router (1 + 1 * 2 ^ 20 + 4 * 2 ^ 25) [flit1] []).router 0 with openMask := 0 })
      (fun u => (u.router 0).fence == 1#16) := by decide +kernel
/-- A flit misses its route: the next router has no entry for it; at the local input the entry is gone, or its IN bit is clear. -/
theorem test_route_miss :
    let s := (router (1 + 1 * 2 ^ 20 + 4 * 2 ^ 25) [flit1] []).setRouter 1 { openMask := 15 }
    (s.router 1).open? 4 ∧ (s.router 1).route 0 = none ∧
    after (.routerForward 0 2 0 0) s (fun u => (u.router 1).miss == 1#16 && (u.router 1).status == 2#5 &&
      (u.router 1).lastDrop == BitVec.ofNat 64 (4096 * 4 + 262144)) ∧
    after (.flitInject 0 ([], 0)) (onTile { sends (0x10 + 1 * 2 ^ 113) (synced 0) with sending := some { sent := 0, block := 0 } })
      (fun u => (u.router 0).miss == 1#16 && (u.tile 0).sending == none) ∧
    after (.flitInject 0 ([], 0)) (routed (1 + 4 * 2 ^ 25) (onTile { sends (0x10 + 1 * 2 ^ 113) (synced 0) with sending := some { sent := 0, block := 0 } }))
      (fun u => (u.router 0).miss == 1#16 && (u.router 0).inq == []) := by decide +kernel
/-- A drained window lies within 96 bits: 2^100 is exported as the largest value, with HIGH. -/
theorem test_drained_partial : (drainVals true (.exact 0 [{ value := 2 ^ 100 }])).map (fun p => (p.2.value, p.2.high)) = [((2 ^ 95 - 1 : Int), true)] := by decide +kernel
/-- Contributions of the local and the north input combine: 1.0 + 1.0; with other counters they are dropped together. -/
theorem test_combine :
    ((router (1 + 2 * 2 + 3 * 2 ^ 20 + 1 * 2 ^ 25) [flit1] [flit1]).router 0).head 0 0 = some flit1 ∧ inPorts (BitVec.ofNat 128 (1 + 2 * 2 + 3 * 2 ^ 20 + 1 * 2 ^ 25)) = [0, 1] ∧
    after (.combine 0 0 0) (router (1 + 2 * 2 + 3 * 2 ^ 20 + 1 * 2 ^ 25) [flit1] [flit1])
      (fun u => ((u.router 0).ready.find 0).map Flit.payload == some 0x4000000040000000#512) ∧
    after (.combine 0 0 0) (router (1 + 2 * 2 + 3 * 2 ^ 20 + 1 * 2 ^ 25) [flit1] [{ flit1 with acnt := 8 }]) (fun u => (u.router 0).ready == [] && (u.router 0).mismatch == 1#16) := by decide +kernel
theorem test_flit_commit : Memory.wf ((router 1 [] []).tile 0).mem = true ∧
    after (.flitCommit 0 0) ((router 1 [] []).setRouter 0 { localOut := some ({ flit1 with bad := 2 }, false, 0) })
      (fun u => (u.tile 0).mem.read 131 == 0x3F#8 && Tbl.get 0#32 (u.tile 0).acnt 9 == 1#32 && (u.tile 0).chk.find 17 == some .poisoned && (u.tile 0).chk.find 16 == none) := by decide +kernel

/-! ### Wharves, the canal and the Hold -/

/-- Granule 0, owned by tenant 0 with a window of 1 GiB, its die's clock running, its wharf as given. -/
def onWharf (w : Wharf) : State :=
  { State.reset with wharves := [(0, w)], granules := [(0, .owned 0)], tenants := [(0, { st := .active, width := 1, height := 1, sizeGib := 1, canal := 1 })]
                     dies := [(0, { state := .running })], tiles := [(0, core 0 (0, 0) (0, 0))] }
/-- Stream 3 of a wharf: KIND `k`, control channel 5, data channel 6, 10 lines from line 0. -/
def stream3 (k : Nat) (q : List (Nat × Flit × Nat)) : Wharf :=
  { streams := [(3, BitVec.ofNat 256 (1 + 2 * k + 6 * 2 ^ 5 + 5 * 2 ^ 17 + 10 * 2 ^ 64))], inq := q, nextOp := 8 }
/-- A control flit with command `c` first. -/
def cmdFlit (c : Nat) : Nat × Flit × Nat := (0, { ch := 5, dst := 2, acnt := 1, lane := 0, payload := BitVec.ofNat 512 c }, 0)
/-- A data flit for line offset `o`. -/
def dataFlit (o : Nat) : Nat × Flit × Nat := (0, { ch := 6, dst := o, acnt := 0, lane := 0, payload := 7 }, 0)
/-- READ of `n` lines from line offset 2 to mooring line 8191. -/
def read2 (n : Nat) : Nat := 1 + 2 * 4 + n * 2 ^ 26 + 8191 * 2 ^ 40

theorem test_wharf_takes : (onWharf (stream3 1 [])).tenantOfGran 0 = some 0 ∧
    after (.wharfTakeFlit 0) ((onWharf (stream3 1 [])).setRouter 0 { localOut := some ((dataFlit 0).2.1, true, 2) })
      (fun u => (u.wharf 0).inq.length == 1 && (u.router 0).localOut == none) ∧
    after (.wharfTakeFlit 0) ((onWharf {}).setRouter 0 { localOut := some ((dataFlit 0).2.1, true, 2) }) (fun u => (u.wharf 0).inq.length == 0 && (u.router 0).miss == 1#16) := by decide +kernel
theorem test_stream_read : (stream3 0 [cmdFlit (read2 2)]).headCmd = some (3, read2 2, (cmdFlit (read2 2)).2.1) ∧
    cmdInvalid ((stream3 0 []).wst 3) (read2 2) = false ∧ cmdLoff (read2 2) + cmdCount (read2 2) ≤ wstLsize ((stream3 0 []).wst 3) ∧
    after (.streamRead 0) (onWharf (stream3 0 [cmdFlit (read2 2)]))
      (fun u => (u.wharf 0).reads.map WharfRead.moff == [8191] && (Tbl.get [] u.egress 0).map (fun b => (b.ty, b.line, b.count)) == [(1, 2, 1)]) := by decide +kernel
/-- A READ of no lines is malformed, one of nine lines goes beyond the stream. -/
theorem test_stream_read_refused : cmdInvalid ((stream3 0 []).wst 3) (read2 0) = true ∧
    after (.streamRead 0) (onWharf (stream3 0 [cmdFlit (read2 0)])) (fun u => (u.wharf 0).status == 2#6 && (u.wharf 0).inq == []) ∧
    cmdInvalid ((stream3 0 []).wst 3) (read2 9) = false ∧
    after (.streamRead 0) (onWharf (stream3 0 [cmdFlit (read2 9)])) (fun u => (u.wharf 0).status == 1#6 && (u.wharf 0).reads.length == 0) := by decide +kernel
theorem test_stream_fence : cmdOp 2 = 2 ∧ cmdInvalid ((stream3 1 []).wst 3) 2 = false ∧ (stream3 1 [cmdFlit 2]).headCmd.isSome ∧
    after (.streamFence 0) (onWharf (stream3 1 [cmdFlit 2])) (fun u => (u.wharf 0).fences == [{ id := 8, stream := 3, tile := 0, dst := 2, acnt := 1 }]) := by decide +kernel
theorem test_fence_complete : let w := { stream3 1 [] with fences := [{ id := 8, stream := 3, tile := 0, dst := 2, acnt := 1 }], counts := [(3, { done := 5, failed := 2 })] }
    w.fences.find? w.fenceReady = some { id := 8, stream := 3, tile := 0, dst := 2, acnt := 1 } ∧
    after (.fenceComplete 0) (onWharf w) (fun u => (u.tile 0).mem.readLE 128 12 == 5 + 2 * 2 ^ 32 && Tbl.get 0#32 (u.tile 0).acnt 1 == 1#32 && (u.wharf 0).fences == []) := by decide +kernel
theorem test_hold_write_flit : (stream3 1 []).dataOf 6 = some 3 ∧
    after (.holdWriteFlit 0) (onWharf (stream3 1 [dataFlit 9])) (fun u => (u.wharf 0).writes == [(8, 3, 9)] && (Tbl.get [] u.egress 0).map (fun b => (b.ty, b.line, b.dst)) == [(2, 9, 576 + stackOf 9)]) ∧
    after (.holdWriteFlit 0) (onWharf (stream3 1 [dataFlit 10])) (fun u => (u.wharf 0).status == 1#6 && (u.wharf 0).writes == []) := by decide +kernel
theorem test_port_out_flit : (stream3 2 []).dataOf 6 = some 3 ∧ wstKind ((stream3 2 []).wst 3) = 2 ∧
    after (.portOutFlit 0) (onWharf (stream3 2 [dataFlit 9])) (fun u => (Tbl.get [] u.egress 0).map (fun b => (b.ty, b.payload)) == [(4, 7#512)]) := by decide +kernel
theorem test_pull_grant : let p : WharfPull := { tile := 0, moff := 4, dst := 0xFFFF, nflit := 2, acnt := 3 }
    let w := { stream3 1 [] with pulls := [p], moor := [(4, { data := 9, present := true })] }
    (Tbl.get {} w.moor p.line).present = true ∧
    after (.pullGrant 0) (onWharf w) (fun u => (u.wharf 0).pulls.map WharfPull.sent == [1] && (u.tile 0).mem.read (64 * 0xFFFF) == 9#8) := by decide +kernel

/-- A barge from stack 2's controller to wharf 0. -/
def reply1 (ty : Nat) : Barge := { ty := ty, tenant := 0, src := 578, dst := 0, op := 4, stream := 3, payload := 11 }
/-- Tenant 0 owns slots 4 and 8 of the frame: its barge leaves in kc 4, which is ns 2, and not in ns 3. -/
theorem test_barge_send :
    let s := fun n => { (onWharf {}).modTenant 0 (fun t => { t with canalSlots := [4, 8] }) with egress := [(578, [reply1 5])], now := n }
    takeFirst (fun b => b.goesTo 0 && (s 2).maySend 578 b) [reply1 5] = some (reply1 5, []) ∧
    after (.bargeSend 578 0 0 4) (s 2) (fun u => u.transit.map Barge.bad == [4#8] && u.egress == []) ∧
    after (.bargeSend 578 0 0 4) (s 3) (fun u => u.transit == [] && u.egress.length == 1) ∧
    after (.bargeSend 578 0 2 0) (s 260) (fun u => u.transit == [] && (u.wharf 0).status == 16#6) := by decide +kernel
/-- Joiners of one entry whose wharves are replication set 7 get one barge, which the core copies to both. -/
theorem test_multicast :
    let s := { onWharf {} with replSets := [(7, [0, 5])] }
    let o := fun g => ({ ty := 1, line := 9, tenant := 0, src := g, op := g + 1 } : HoldOp)
    (((s.replyAll 2 [o 5, o 0] 11 false 0).egress.flatMap Prod.snd).map (fun b => (b.mc, b.dst, b.arrivals.map (fun x => (x.dst, x.op))))) =
      [(true, 7, [(5, 6), (0, 1)])] ∧
    ((s.replyAll 2 [o 5, o 3] 11 false 0).egress.flatMap Prod.snd).map (fun b => (b.mc, b.dst)) = [(false, 5), (false, 3)] := by decide +kernel
/-- Line 1 of a READ to mooring line 8191 lands in mooring line 0. -/
theorem test_read_reply : let w := { stream3 0 [] with reads := [{ id := 4, stream := 3, loff := 0, count := 2, moff := 8191 }] }
    let s := { onWharf w with transit := [{ reply1 5 with idx := 1 }] }
    s.arriving 578 0 = some ({ reply1 5 with idx := 1 }, []) ∧ s.discards 0 = false ∧ wstXmode (w.wst 3) = 0 ∧
    after (.rdRpl 578 0) s (fun u => Tbl.get {} (u.wharf 0).moor 0 == { data := 11, present := true } && (u.wharf 0).moor.length == 1 && u.transit == []) := by decide +kernel
theorem test_write_ack : let s := fun (st : Nat) => { onWharf { stream3 1 [] with writes := [(4, 3, 9)] } with transit := [{ reply1 6 with status := st }] }
    after (.wrAck 578 0) (s 0) (fun u => (u.wharf 0).writes == [] && Tbl.get {} (u.wharf 0).counts 3 == { done := 1 }) ∧
    after (.wrAck 578 0) (s 1) (fun u => Tbl.get {} (u.wharf 0).counts 3 == { done := 1, failed := 1 } && (u.wharf 0).status == 4#6) ∧
    after (.wrAck 578 0) (s 2) (fun u => Tbl.get {} (u.wharf 0).counts 3 == { refused := 1 } && (u.wharf 0).status == 1#6) := by decide +kernel
/-- A PORT_IN stream of two sections of 4 lines from mooring line 16. -/
def portIn3 : Wharf := { streams := [(3, BitVec.ofNat 256 (1 + 2 * 3 + 1 * 2 ^ 156 + 16 * 2 ^ 164 + 4 * 2 ^ 177))], sections := [(3, { index := 1, offset := 3 })] }
theorem test_port_in : wstKind (portIn3.wst 3) = 3 ∧
    after (.portIn 578 0) { onWharf portIn3 with transit := [reply1 7] } (fun u => (Tbl.get {} (u.wharf 0).moor 23).data == 11#512 && Tbl.get {} (u.wharf 0).sections 3 == { index := 1, offset := 4 }) ∧
    after (.portIn 578 0) { onWharf portIn3 with transit := [{ reply1 7 with sect := true }] } (fun u => Tbl.get {} (u.wharf 0).sections 3 == { index := 0, offset := 0 }) := by decide +kernel

/-- A barge from wharf 0 to stack 0's controller for a line. -/
def toHold (ty line : Nat) : Barge := { ty := ty, tenant := 0, src := 0, dst := 576, line := line, payload := 13, op := 6 }
/-- Line 0 in the window of 2^24 lines, and line 2^24 beyond it. -/
theorem test_rd_req : (onWharf {}).readable 0 (2 ^ 24 - 1) = true ∧ (onWharf {}).readable 0 (2 ^ 24) = false ∧
    after (.rdReq 0 0) { onWharf {} with transit := [toHold 1 (2 ^ 24 - 1)] } (fun u => (u.stack 0).ops.map HoldOp.line == [2 ^ 24 - 1] && u.transit == []) ∧
    after (.rdReq 0 0) { onWharf {} with transit := [toHold 1 (2 ^ 24)] } (fun u => (Tbl.get [] u.egress 576).map (fun b => (b.ty, b.status)) == [(5, 2)]) := by decide +kernel
theorem test_wr : (onWharf {}).inWindow 0 0 = true ∧ (onWharf {}).inWindow 0 (2 ^ 24) = false ∧
    after (.wr 0 0) { onWharf {} with transit := [toHold 2 0] } (fun u => (u.stack 0).ops.map HoldOp.payload == [13#512]) ∧
    after (.wr 0 0) { onWharf {} with transit := [toHold 2 (2 ^ 24)] } (fun u => (u.stack 0).ops == [] && (Tbl.get [] u.egress 576).map (fun b => (b.ty, b.status)) == [(6, 2)]) := by decide +kernel
/-- A shard of one block at line 0, layout A: its gradient lines are 28 to 55. -/
def shard0 : State := { onWharf {} with ushd := [(0, BitVec.ofNat 512 (1 + 1 * 2 ^ 131 + 1 * 2 ^ 224 + 448 * 2 ^ 256))] }
theorem test_acc_wr : shard0.isGradient (shard0.role 28) = true ∧ shard0.isGradient (shard0.role 27) = false ∧
    after (.accWr 0 0) { shard0 with transit := [toHold 3 28] } (fun u => (u.stack 0).ops.map HoldOp.ty == [3]) ∧
    after (.accWr 0 0) { shard0 with transit := [toHold 3 27] } (fun u => (Tbl.get [] u.egress 576).map (fun b => (b.ty, b.status)) == [(6, 2)]) := by decide +kernel
/-- A queued access of line 5 of tenant 0. -/
def holdOp (ty : Nat) : HoldOp := { ty := ty, line := 5, tenant := 0, src := 0, payload := 13, op := 6 }
theorem test_hold_access : let s := fun ty => { (onWharf {}).setStack 0 { ops := [holdOp ty] } with hold := [(320, 9#8)] }
    (s 1).nextAccess 0 ((s 1).stack 0).ops [] = some (holdOp 1) ∧ Memory.wf (s 2).hold = true ∧ (s 2).role 5 = none ∧ (s 2).lineLost 5 = false ∧
    after (.holdAccessSlot 0 0 0) (s 1) (fun u => (Tbl.get [] u.egress 576).map (fun b => (b.ty, b.status, b.payload)) == [(5, 0, 9#512)]) ∧
    after (.holdAccessSlot 0 0 0) (s 2) (fun u => u.holdLine 5 == 13#512 && (Tbl.get [] u.egress 576).map (fun b => (b.ty, b.status)) == [(6, 0)]) := by decide +kernel
theorem test_merge_window_end : after (.mergeWindowEnd 0) { (onWharf {}).setStack 0 { merges := [{ line := 1, tenant := 0, opened := 0, ready := some (0, false, 0) }] } with now := 128 }
    (fun u => (u.stack 0).merges == []) := by decide +kernel
theorem test_patrol_scrub : (onWharf {}).linePoison 5 = false ∧ after (.patrolScrub 5 0) (onWharf {}) (fun u => u.holdMeta == []) ∧
    after (.patrolScrub 5 1) (onWharf {}) (fun u => (u.stack (stackOf 5)).corrected == 1#32) ∧
    after (.patrolScrub 5 3) (onWharf {}) (fun u => (u.lineMeta 5).poison && (u.stack (stackOf 5)).poisoned == 1#16) := by decide +kernel
/-- A stack of which more than 1,024 lines are rebuilt within 1 s fails (R442). -/
theorem test_rebuilds_fail : let k := stackOf 5
    after (.patrolScrub 5 2) ((onWharf {}).setStack k { rebuilds := List.replicate 1024 (onWharf {}).now }) (fun u => (u.stack k).failed && (u.stack k).rebuilt == 1#16) ∧
    after (.patrolScrub 5 2) ((onWharf {}).setStack k { rebuilds := List.replicate 1023 (onWharf {}).now }) (fun u => !(u.stack k).failed) := by decide +kernel

/-! ### Locks and update units -/

/-- Context 0 running on one device, lock 4 fired at 1000, tile 0 its only tile, the time 2000. -/
def locked (cx : Ctx) : State :=
  { onTile (core 0 (0, 0) (0, 0)) with ctxs := [(0, { cx with state := .running, loaded := true, started := true, index := 4, fireTime := 1000 })], now := 2000 }
/-- Tile 0 has arrived with flag bit 31 and contribution 1.0 in slot 2. -/
def arrival0 : Arrival := { tile := 0, time := 1500, cause := 0, mask := 4, vals := (Vector.replicate 4 0#64).set 2 0x3FF0000000000000#64, flags := 0x80000000#32 }

theorem test_lockkeeper : (locked { scalesDue := some 5 }).lk.state ≠ .failed ∧
    after (.lockkeeperArrival 0) (locked { scalesDue := some 5 }) (fun u => (u.ctx 0).lkArrived && (u.ctx 0).firstArrival == some 2000) ∧
    after (.delayedScaleWrite 0 3) (locked { scalesLeft := [(3, 0x80)] }) (fun u => (u.ctx 0).scalesLeft == [] && Tbl.get 0x7F (u.tile 0).nmScale 3 == 0x80) := by decide
theorem test_huu_arrives : let s := locked { huus := [2] }
    (s.huuMembers 0).contains 2 = true ∧ s.huuDone 0 2 5 = true ∧
    after (.huuArrival 0 2 true) s (fun u => (u.ctx 0).huuArrived.map (fun p => (p.1, p.2.1)) == [(2, 2000)]) := by decide
theorem test_lock_fires : let s := locked { arrivals := [arrival0] }
    s.fireReady 0 = true ∧ (s.gatherOf 0).mismatch = false ∧ (s.gatherOf 0).abort = false ∧ (s.gatherOf 0).flags = 0x80000000#32 ∧
    (s.gatherOf 0).presence = 4#4 ∧ (s.gatherOf 0).latest = 1500 ∧
    after (.lockFire 0) s (fun u => (u.ctx 0).index == 5 && (u.ctx 0).visibleAt == 2048 &&
      (((u.ctx 0).release.map (fun r => (r.cargo.toList, r.flags))) == some ([0, 0, 0x3FF0000000000000, 0], 0x80000000))) := by decide +kernel
theorem test_lock_fires_halted : let s := locked { arrivals := [arrival0], haltReq := true }
    s.fireReady 0 = true ∧ (s.gatherOf 0).halt = true ∧ after (.lockFire 0) s (fun u => (u.ctx 0).state == .halted && (u.ctx 0).release == none) := by decide +kernel
/-- Without its tile's arrival, or within 250 ns of the last firing, a lock does not fire. -/
theorem test_lock_waits : (locked {}).fireReady 0 = false ∧ { locked { arrivals := [arrival0] } with now := 1249 }.fireReady 0 = false ∧
    { locked { arrivals := [arrival0] } with now := 1250 }.fireReady 0 = true := by decide
/-- Lock 5's release, shown from 2000 on. -/
def release5 : Release := { index := 5, fire := 1900, cause := 0, epoch := 0, digest := 0, stagedDigest := 0, stagedTarget := 0, halt := false, abort := false,
                            armed := false, commit := false, flags := 6, presence := 4, status := 0, cargo := (Vector.replicate 4 0#64).set 2 9#64 }
theorem test_lock_release : let s := { locked { release := some release5, visibleAt := 2000, huuHold := true } with tiles := [(0, { stalled .lockStall with holdRelease := true })] }
    s.clocked 0 = true ∧
    after (.lockRelease 0 0) s (fun u => (u.tile 0).lock.index == 5#48 && (u.tile 0).lock.flagsIn == 6#32 && (u.tile 0).core.act == .run && (u.tile 0).core.pc == 1#12) ∧
    after (.lockRelease 0 9216) s (fun u => (u.ctx 0).huuIndex == 5 && !(u.ctx 0).huuHold) ∧
    after (.lockRelease 0 0) { s with tiles := [(0, { stalled .off with holdRelease := true })] } (fun u => (u.tile 0).core.act == .run && (u.tile 0).core.pc == 0#12) := by decide +kernel
/-- A Timed lock is overdue 1 µs × its stretch limit after it was due. -/
theorem test_lock_overdue : let s := locked { elastic := false, period := 1000, stretchLimit := 1 }
    s.isRoot 0 = true ∧ after (.lockOverdue 0) { s with now := 3001 } (fun u => (u.ctx 0).overdueFor == some 5) ∧
    after (.lockOverdue 0) { s with now := 3000 } (fun u => (u.ctx 0).overdueFor == none) := by decide
/-- Context 0 in the sweep of shard entry 0 (`shard0`), update lock 4 released to the units. -/
def sweep0 (e : Nat) (fp : Bool) : State :=
  { shard0 with ushd := [(0, BitVec.ofNat 512 e)]
                ctxs := [(0, { state := .running, started := true, index := 4, huuIndex := 4, huus := [0]
                               upd := { fpass := fp, ustep := 1, run := some { t := 1, lock := 4, norm := 0, skip := false, c := 0x3F800000, groups := [], factorDone := [], blocksDone := [], digests := [] } } })] }
theorem test_update_block : let s := sweep0 (1 + 1 * 2 ^ 131 + 1 * 2 ^ 224 + 448 * 2 ^ 256) false
    s.shardCtx 0 = 0 ∧ shValid (s.shard 0) = true ∧ shNblk (s.shard 0) = 1 ∧ (s.ctx 0).sweeping.isSome = true ∧ (s.ctx 0).huuReached 4 = true ∧
    after (.updateBlock 0 0 3) s (fun u => (u.ctx 0).upd.run.map StepRun.blocksDone == some [(0, 0)] && u.hold == s.hold && (u.ctx 0).upd.ustatus &&& usStatePoison == usStatePoison) := by decide +kernel
theorem test_factor_pass : let s := sweep0 (1 + 4 + 1 * 2 ^ 131 + 1 * 2 ^ 224 + 448 * 2 ^ 256) true
    shFact (s.shard 0) = true ∧ 0 < factorBlocks (s.shard 0) ∧
    after (.factorPass 0 0 3) s (fun u => (u.ctx 0).upd.run.map StepRun.factorDone == some [(0, 0)]) := by decide +kernel

/-! ### Giore and Basin ports -/

/-- Port 3 as given, its power domain on and the default profile in force. -/
def onPort (q : GPort) : State := { State.reset with ports := [(3, q)], power := { pdOn := 0xFFFFF }, now := 5000000000 }
/-- A received HELLO of device 7 port 27, versions `lo` to `hi`. -/
def hello3 (lo hi : Nat) : LinkUnit := linkUnit lHELLO [(0, 1, lo % 256), (1, 1, lo / 256), (2, 1, hi % 256), (3, 1, hi / 256), (4, 2, 7), (6, 1, 27)]

theorem test_training : after (.lossOfSignal 3) (onPort { state := .up, width := 4 }) (fun u => (u.port 3).state == .signal && (u.port 3).width == 0) ∧
    (onPort {}).portOn 3 = true ∧ after (.signalDetected 3 2) (onPort {}) (fun u => (u.port 3).state == .align && (u.port 3).width == 2) ∧
    after (.alignLock 3) (onPort { state := .align }) (fun u => (u.port 3).state == .negotiate && (u.port 3).sysq.length == 1) := by decide +kernel
theorem test_link_hello : let s := fun lo hi => onPort { state := .negotiate, rxq := [(1, false, hello3 lo hi)] }
    (s 0x100 0x201).wiringOk 3 (hello3 0x100 0x201).body.toNat = true ∧ commonVersion (hello3 0x300 0x301).body.toNat = none ∧
    after (.linkHello 3) (s 0x100 0x200) (fun u => (u.port 3).state == .delay && (u.port 3).vmajor == 2 && (u.port 3).vminor == 0 && (u.port 3).partner == 7) ∧
    after (.linkHello 3) (s 0x300 0x301) (fun u => (u.port 3).state == .negotiate && (u.port 3).status.getLsbD psVersion) := by decide +kernel
theorem test_link_hello_wrong_port : let x := linkUnit lHELLO [(0, 1, 0), (1, 1, 1), (2, 1, 1), (3, 1, 2), (4, 2, 7), (6, 1, 28)]
    let s := onPort { state := .negotiate, rxq := [(1, false, x)] }
    s.wiringOk 3 x.body.toNat = false ∧ after (.linkHello 3) s (fun u => (u.port 3).state == .negotiate && (u.port 3).status.getLsbD psWiring) := by decide +kernel
theorem test_training_ends : after (.delayMeasured 3 9) { onPort { state := .delay } with fabric := { fmax := 9 } } (fun u => (u.port 3).state == .tables && (u.port 3).fdelay == 9) ∧
    after (.delayMeasured 3 10) { onPort { state := .delay } with fabric := { fmax := 9 } } (fun u => (u.port 3).state == .delay) ∧
    after (.tablesCheck 3 ({} : GPort).tableCrcs) (onPort { state := .tables }) (fun u => (u.port 3).state == .up) ∧
    after (.trainingTimeout 3) (onPort { state := .align }) (fun u => (u.port 3).state == .signal) ∧
    after (.laneFault 3 2) (onPort { state := .up, width := 4 }) (fun u => (u.port 3).state == .align && (u.port 3).width == 2) := by decide +kernel
theorem test_retraining : after (.ackTimeout 3) (onPort { state := .up, nakCount := 8 }) (fun u => (u.port 3).state == .align && (u.port 3).nakCount == 0) ∧
    after (.retrainTimeout 3) (onPort { state := .align, retrainStart := some 0 }) (fun u => (u.port 3).state == .failed) ∧
    after (.timeRetrainTimeout 3) { onPort { state := .up, timeRetrainAt := some 0, timeRetrains := 1 } with fabric := { drifting := true } } (fun u => (u.port 3).timeRetrains == 2) ∧
    after (.timeRetrainTimeout 3) { onPort { state := .up, timeRetrainAt := some 0, timeRetrains := 2 } with fabric := { drifting := true } } (fun u => (u.port 3).state == .failed) := by decide +kernel
/-- The block after the last, SEQ 0 after 4095; a bad one; and the replay that a NAK asks for. -/
def okCrc (l : List (Nat × Nat × Nat × Nat)) (seq ack : Nat) (nak replay retrain : Bool) (stamp : Nat) : Option Nat :=
  some (blockCrc (blockUnits l) (controlLow seq ack nak replay retrain stamp))
theorem test_blocks : let l := [(2, 1, 5, 77), (9, 0, 0, 0)]
    after (.blockReceive 3 (okCrc l 0 0 false false false 9) 0 0 false false false (1, 0, 9) l) (onPort { state := .up })
      (fun u => (u.port 3).rxSeq == 0 && (u.port 3).rxq.length == 1 && (u.port 3).rxCount == 1) := by decide +kernel
theorem test_blocks_bad : after (.blockReceive 3 none 0 0 false false false (0, 0, 0) []) (onPort { state := .up })
    (fun u => (u.port 3).rxReplayWait && (u.port 3).sendNak && (u.port 3).rxSeq == 4095) := by decide +kernel
theorem test_blocks_replay :
    after (.blockReceive 3 (okCrc [] 0 9 true true true 0) 0 9 true true true (1, 0, 0) []) (onPort { state := .up, rxReplayWait := true })
      (fun u => !(u.port 3).rxReplayWait && (u.port 3).replayFrom == some 9 && (u.port 3).state == .align) := by decide +kernel
theorem test_replay_sent :
    after (.blockReplay 3) (onPort { state := .up, replayFrom := some 9, replay := [{ seq := 9, units := [] }, { seq := 10, units := [(3, { kind := 1, index := 5, body := 7 })] }] })
      (fun u => (u.port 3).replayFrom == none && (u.port 3).status.getLsbD psReplay && (u.port 3).wire.map (fun w => (w.1.seq, bits w.2.toNat 0 12, bit w.2.toNat 25)) == [(10, 10, true)]) := by decide +kernel
/-- Slot 5 is owned by 40, which holds 16 credits. -/
def sender3 (used : Nat) : GPort :=
  { state := .up, fsltTx := [(5, BitVec.ofNat 32 (40 + 1 * 2 ^ 16))], queues := [(40, [⟨kDATA, 2, 9⟩])], creditUsed := [(40, used)], slotPos := 5 }
theorem test_unit_send : (sender3 15).hasCredit 40 = true ∧ (sender3 16).hasCredit 40 = false ∧
    after (.unitSend 3 5) (onPort (sender3 15)) (fun u => (u.port 3).filling == [(5, ⟨kDATA, 2, 9⟩)] && Tbl.get [] (u.port 3).queues 40 == [] && Tbl.get 0 (u.port 3).creditUsed 40 == 16) ∧
    after (.unitSend 3 5) (onPort (sender3 16)) (fun u => (u.port 3).filling == [] && (u.port 3).slotPos == 6) := by decide +kernel
/-- The slots of the system, of markers, and the second slot of a marker. -/
theorem test_unit_send_kinds : after (.unitSend 3 16) (onPort { state := .negotiate, sysq := [⟨kLINK, lHELLO, 1⟩], slotPos := 16 }) (fun u => (u.port 3).filling == [(16, ⟨kLINK, lHELLO, 1⟩)] && (u.port 3).sysq == []) ∧
    after (.unitSend 3 32) { onPort { state := .up, slotPos := 32, gmptTx := [(1, 40#64)] } with fabric := { markers := [(40, [(⟨kMarkerA, 0, 1⟩, ⟨kMarkerB, 0, 2⟩)])] } }
      (fun u => (u.port 3).filling == [(32, ⟨kMarkerA, 0, 1⟩), (33, ⟨kMarkerB, 0, 2⟩)] && (u.port 3).slotPos == 34) ∧
    after (.unitSend 3 33) (onPort { state := .up, slotPos := 33 }) (fun u => (u.port 3).filling == [] && (u.port 3).slotPos == 34) := by decide +kernel

/-- Port `p` with one received unit in slot 6, owned by 40. -/
def received (p : Nat) (x : LinkUnit) (f : Fabric) : State :=
  { State.reset with ports := [(p, { state := .up, vmajor := 2, vminor := 1, rxq := [(6, false, x)], fsltRx := [(6, BitVec.ofNat 32 (40 + 1 * 2 ^ 16))], creditUsed := [(40, 3), (41, 5)] })], fabric := f }
def circuit9 (d : Bool) : Fabric := { circuits := [(9, { in_ := true, domain := 40, ctx := 0, wharf := 12, wst := 3, port := 3, discard := d })] }
theorem test_data_units : after (.data 3) (received 3 ⟨kDATA, 9, 5⟩ (circuit9 false)) (fun u => (Tbl.get [] u.egress 608).map (fun b => (b.ty, b.dst, b.stream, b.payload)) == [(7, 12, 3, 5)] && (u.port 3).rxq == [] && (Tbl.get [] u.egress 608).map Barge.credit == [some (3, 40)]) ∧
    after (.data 3) (received 3 ⟨kDATA, 9, 5⟩ (circuit9 true)) (fun u => u.egress == []) ∧
    after (.data 3) (received 3 ⟨kDATA, 8, 5⟩ (circuit9 false)) (fun u => u.egress == [] && (u.port 3).dropCount == 1) ∧
    after (.dataPoison 3) (received 3 ⟨kDataPoison, 9, 5⟩ (circuit9 false)) (fun u => (Tbl.get [] u.egress 608).map Barge.poison == [true]) ∧
    after (.sectend 3) (received 3 ⟨kSECTEND, 9, 5⟩ (circuit9 false)) (fun u => (Tbl.get [] u.egress 608).map Barge.sect == [true]) := by decide +kernel
theorem test_credit : after (.credit 3) (received 3 (linkUnit lCREDIT [(0, 4, 40 + 2 * 2 ^ 16), (60, 4, 41 + 5 * 2 ^ 16)]) {}) (fun u => Tbl.get 0 (u.port 3).creditUsed 40 == 1 && Tbl.get 0 (u.port 3).creditUsed 41 == 0) ∧
    (GPort.unknown { vmajor := 2 } ⟨0xF, 0, 0⟩) = true ∧ after (.unknownUnit 3) (received 3 ⟨0xF, 0, 0⟩ {}) (fun u => (u.port 3).crcCount == 1 && (u.port 3).rxq == []) := by decide +kernel
/-- Tag 4095 of Basin port 7 for two lines. -/
def basinTag (ty : Nat) : Fabric := { tags := [(4096 * 7 + 4095, { req := { reply1 ty with tenant := 40, dst := 0, src := 2, line := 100, count := 1 } })] }
theorem test_basin_replies : after (.brp 55) (received 55 ⟨kBRP, 4095, 5⟩ (basinTag 1)) (fun u => (u.egress.flatMap Prod.snd).map (fun b => (b.ty, b.dst, b.line, b.payload)) == [(5, 2, 100, 5)] && (u.fabric.tags.map (fun t => t.2.got)) == [1]) ∧
    after (.brpPoison 55) (received 55 ⟨kBrpPoison, 4095, 5⟩ (basinTag 1)) (fun u => (u.egress.flatMap Prod.snd).map Barge.poison == [true]) ∧
    after (.bmsg 55) (received 55 ⟨kBMSG, 0, BitVec.ofNat 512 (4 + 40 * 2 ^ 4 + 4095 * 2 ^ 12 + 1 * 2 ^ 30)⟩ (basinTag 2)) (fun u => (u.egress.flatMap Prod.snd).map (fun b => (b.ty, b.dst, b.line, b.status)) == [(6, 2, 100, 1)] && u.fabric.tags == []) := by decide +kernel
/-- PORT_MOVE on port 3 names the partner's port 28, the fibre of port 4. -/
theorem test_port_move : after (.portMove 3) (received 3 (linkUnit lPortMove [(0, 1, 28)]) {}) (fun u => (u.port 4).state == .failed && u.homePort 4 == 3) ∧
    after (.basinPortFail 7) { received 55 ⟨0, 0, 0⟩ (basinTag 1) with ports := [(55, { state := .align }), (54, { state := .up })] } (fun u => (u.port 55).state == .failed && u.fabric.tags == [] && ((u.port 54).breqs.map Barge.taken) == [0]) := by decide +kernel

/-! ### The tree of a domain -/

/-- Grant of domain 40 at the root (with child trunk 0) or below it (with parent trunk 0 and child trunk 1, backup trunk 2). -/
def grant40 (root : Bool) : Grant :=
  { domainId := 40, tenant := 0, relay := false, root := root, parent := if root then 0xFF else 0, children := if root then 1 else 2
    backup := if root then 0xFF else 2, k := 1, trunks := [], raw := 0 }
/-- Context 0 in domain 40, lock 4 fired, and port 3 on trunk 0 with received units. -/
def inTree (root : Bool) (cx : Ctx) (l : List LinkUnit) : State :=
  { State.reset with
    ctxs := [(0, { cx with state := if cx.state = .stopped then .running else cx.state, loaded := true, spans := true, domainId := 40, started := cx.state ≠ .forming, index := 4, fireTime := 1000 })]
    ports := [(3, { state := .up, vmajor := 2, vminor := 1, rxq := l.map (fun x => (6, false, x)), fsltRx := [(6, BitVec.ofNat 32 (40 + 1 * 2 ^ 16))] })]
    fabric := { grants := [(40, grant40 root)] }, now := 2000 }
/-- Device 9's gather of lock `k` with flag 0x10. -/
def gather9 (k : Nat) : GatherMarker :=
  { trunk := 0, device := 9, index := k, latest := 1700, cause := 0, epoch := 0, digest := 0, mismatch := false, stagedDigest := 0, stagedTarget := 0
    stagedState := 0, halt := false, abort := false, flags := 0x10#32, presence := 2#4, status := 0, cargo := (Vector.replicate 4 0#128).set 1 7#128 }
def pair (p : LinkUnit × LinkUnit) : List LinkUnit := [p.1, p.2]

theorem test_gather_marker : let l := fun k => pair (encGather 40 9 false true (gather9 k))
    (inTree true {} (l 5)).ctxOfDomain 40 = some 0 ∧ ((inTree true {} (l 5)).childTrunks 0).contains 0 = true ∧
    after (.gatherMarker 3) (inTree true {} (l 5)) (fun u => (u.ctx 0).childMarkers == [{ gather9 5 with at_ := 2000 }] && (u.port 3).rxq == []) ∧
    after (.gatherMarker 3) (inTree true {} (l 6)) (fun u => (u.ctx 0).childMarkers == []) := by decide +kernel
theorem test_release_marker : let s := inTree false {} (pair (encRelease 40 1 { release5 with fire := 1900 }))
    s.parentTrunk 0 = some 0 ∧ s.childTrunks 0 = [1] ∧
    after (.releaseMarker 3) s (fun u => (u.ctx 0).index == 5 && (u.ctx 0).fireTime == 1900 && (u.ctx 0).release.isSome &&
      (Tbl.get [] u.fabric.markers (65536 * 1 + 40)).length == 1) := by decide +kernel
/-- A FORM of 2 devices with depth 0 and edge 3,000 ps, under versions 2.1 and 1.0. -/
def formOf2 : LinkUnit := linkUnit lFORM [(0, 2, 40), (2, 2, 2), (4, 1, 0x21), (5, 1, 0x10), (6, 2, 0), (8, 4, 3000)]
/-- The root is forming and holds its child's FORM. -/
def forming (cx : Ctx) (low : Nat) : State :=
  let s := inTree true { cx with state := .forming, formation := some { fn := 1, slot := 0, started := 0, sent := false }, oAssumed := 500 } []
  { s with fabric := { s.fabric with forms := [(40, [{ trunk := 0, members := 2, lowest := low, required := 0x20, depth := 0, he := 3000, image := 0 }])] } }
theorem test_form : (inTree true {} [formOf2]).fabric.grants.find 40 = some (grant40 true) ∧
    after (.form 3) { inTree true {} [formOf2] with ctxs := [] } (fun u => (Tbl.get [] u.fabric.forms 40).map FormMsg.he == [3000]) := by decide +kernel
/-- The root forms: the depth is 1, R_rel and O follow from the longest edge; a child below the version that the domain needs fails it. -/
theorem test_formation : let s := forming {} 0x21
    (grant40 true).edges.all (fun e => (s.trunkPort e).isSome) = true ∧ (s.formOf 0 (grant40 true)).depth = 1 ∧
    (s.formOf 0 (grant40 true)).required ≤ (s.formOf 0 (grant40 true)).lowest ∧
    cdiv (168000 + (s.formOf 0 (grant40 true)).depth * (2 * (s.formOf 0 (grant40 true)).he + 8000)) 1000 = 1202 ∧
    after (.form 3) { forming { oAssumed := 1202 } 0x21 with ports := (inTree true {} [formOf2]).ports } (fun _ => true) ∧
    (({ (forming {} 0x21) with ctxs := [(0, { (forming {} 0x21).ctx 0 with oAssumed := 1202 })] }.formStep 0).ctx 0).overhead = 1202 ∧
    (((forming {} 0x11).formStep 0).ctx 0).state = .stopped := by decide +kernel
/-- FORMED carries O 400, R_rel 200,000 ps and version 2.1. -/
theorem test_formed : let x := linkUnit lFORMED [(0, 2, 40), (2, 2, 0), (4, 2, 400), (6, 4, 200000), (10, 1, 0x21)]
    let s := inTree false { state := .forming, oAssumed := 500, formation := some { fn := 1, slot := 0, started := 0, sent := true } } [x]
    after (.formed 3) s (fun u => (u.ctx 0).overhead == 400 && (u.ctx 0).rRel == 200000 && (u.ctx 0).version == 0x21) ∧
    after (.formed 3) { s with ports := (inTree false {} [linkUnit lFORMED [(0, 2, 40), (2, 2, 5)]]).ports } (fun u => (u.ctx 0).state == .stopped && (u.ctx 0).formation == none) ∧
    after (.formationTimeout 0) { s with now := 1000000000 } (fun u => (u.ctx 0).state == .stopped) := by decide +kernel
theorem test_digest_unit : let x := linkUnit lDIGEST [(0, 4, 77), (4, 1, 1), (24, 8, 5)]
    let s := inTree true { upd := { run := some { t := 1, lock := 4, norm := 0, skip := false, c := 0, groups := [], factorDone := [], blocksDone := [], digests := [] } } } [x]
    ((s.port 3).rxOwner 6).bind s.ctxOfDomain = some 0 ∧
    after (.digest 3) s (fun u => (u.ctx 0).digestMsgs.map (fun d => (d.tid, d.digest)) == [(77, 5)]) := by decide +kernel
/-- Port 3 has lost its signal for 20 µs, and no other port of trunk 0 is up. -/
theorem test_member_loss : let s := { inTree true {} [] with ports := [(3, { state := .signal, signalLostAt := some 0 })], now := 20000 }
    s.trunkLost 0 = true ∧ { s with now := 19999 }.trunkLost 0 = false ∧ (grant40 true).edges.contains 0 = true ∧
    after (.memberLossDetect 0 false) s (fun u => u.fabric.lostTrunks == [0]) := by decide +kernel
theorem test_member_lost : let x := linkUnit lMemberLost [(0, 2, 40), (2, 2, 9)]
    after (.memberLost 3 false) (inTree true {} [x]) (fun u => (u.ctx 0).state == .aborted) ∧
    (let s := inTree false { version := 0x21 } [x]
     after (.memberLost 3 true) { s with fabric := { s.fabric with lostTrunks := [0] } } (fun u => (u.ctx 0).switching && ((u.fabric.grants.find 40).map Grant.parent) == some 2)) ∧
    (let s := inTree true { huuIndex := 4, upd := { run := some { t := 1, lock := 4, norm := 0, skip := false, c := 0, groups := [], factorDone := [], blocksDone := [], digests := [] } } } [x]
     (s.ctx 0).sweepBegun = true ∧ after (.memberLost 3 false) s (fun u => (u.ctx 0).aborting)) := by decide +kernel
theorem test_replay_messages : let x := linkUnit lReplayHold [(0, 2, 40)]
    after (.replayHold 3) (inTree true {} [x]) (fun u => (u.ctx 0).holdReleases && (u.ctx 0).recovery.isSome) ∧
    after (.replayHold 3) (inTree false {} [x]) (fun u => Tbl.get [] u.fabric.links 0 == [x] && !(u.ctx 0).holdReleases) ∧
    (let s := inTree true {} [linkUnit lReplayMark [(0, 2, 40)]]
     after (.replayMark 3) { s with fabric := { s.fabric with circuits := (circuit9 true).circuits } } (fun u => (u.fabric.circuits.find 9).map Circuit.discard == some false)) := by decide +kernel

/-! ### Loop ports -/

/-- A WST entry of a Loop stream of port 0 (endpoint 614): role, service 7, 600 lines from line 16, records of at most 8 tokens of 64 bytes. -/
def loopEntry (role : Nat) : BitVec 256 :=
  BitVec.ofNat 256 (pack [(0, 1, 1), (1, 2, if role = 2 then 2 else 3), (29, 35, 16), (64, 25, 28), (132, 10, 614), (142, 2, role), (144, 8, 7), (152, 16, 0x1234), (168, 13, 8), (181, 4, 6)])
/-- Tenant 0 on granule 0 with an input, a query and a reply stream at entries 0 to 2, and queue pair 0 on Loop port 0. -/
def onLoop (x : QPair) (p : LoopPort) : State :=
  { State.reset with
    tenants := [(0, { st := .active, width := 1, height := 1, sizeGib := 1, loopQp := 4 })], granules := [(0, .owned 0)]
    wharves := [(0, { streams := [(0, loopEntry 0), (1, loopEntry 1), (2, loopEntry 2)] })]
    loops := [(0, { p with up := true, qps := [(0, x)] })], now := 5000, power := { pdOn := 0xFFFFF } }
def qp0 : QPair := { tenant := 0, stream := 0, index := 0 }

theorem test_loop_streams : isLoop (loopEntry 0) = true ∧ isLoop (loopEntry 2) = true ∧ (onLoop qp0 {}).inputStream 0 0 7 = some 0 ∧
    (onLoop qp0 {}).inputStream 0 0 8 = none ∧ lpAdmit (loopEntry 0) = 0x1234 ∧ ringSlots (loopEntry 0) = 3 := by decide +kernel
theorem test_cm_req : after (.cmReq 0 0x4C5700000007 0x1234) (onLoop qp0 {}) (fun u => u.qp 0 1 == some { tenant := 0, stream := 0, index := 1 } && (u.loop 0).answers == [.reply 1]) ∧
    after (.cmReq 0 0x4C5700000008 0x1234) (onLoop qp0 {}) (fun u => u.qp 0 1 == none && (u.loop 0).answers == [.reject] && (u.loop 0).cmReject == 1) := by decide +kernel
theorem test_queue_pairs : after (.cmDreq 0 0) (onLoop qp0 {}) (fun u => u.qp 0 0 == none) ∧ after (.qpTransportError 0 0) (onLoop qp0 {}) (fun u => u.qp 0 0 == none) ∧
    after (.invalidRequest 0 0) (onLoop qp0 {}) (fun u => (u.loop 0).answers == [.invalidRequest 0]) ∧
    after (.cnp 0 0) (onLoop qp0 {}) (fun u => (u.qp 0 0).map QPair.rate == some 500000) ∧
    after (.rnrNak 0 0) (onLoop { qp0 with sends := [{ bytes := [], retries := 6 }] } {}) (fun u => (u.qp 0 0).map (fun x => x.sends.map LoopSend.retries) == some [7]) ∧
    after (.rnrNak 0 0) (onLoop { qp0 with sends := [{ bytes := [], retries := 7 }] } {}) (fun u => (u.qp 0 0).map QPair.sends == some []) := by decide +kernel
/-- A reply that waits on a queue pair which closes is discarded, and counted (R416). -/
theorem test_reply_closed : after (.cmDreq 0 0) (onLoop { qp0 with stream := 1, sends := [{ bytes := [], slot := some (1, 0) }] } {})
    (fun u => (u.loop 0).replyDiscard == 1#16 && (u.loopStream 2).discarded == 1#32) := by decide +kernel
theorem test_loop_port : after (.pfcPause 0 1) (onLoop qp0 { pfc := true }) (fun u => (u.loop 0).paused) ∧
    { onLoop qp0 {} with loops := [] }.loopOnNow 0 = true ∧ after (.loopLinkUp 0) { onLoop qp0 {} with loops := [] } (fun u => (u.loop 0).up) ∧
    after (.loopPortFail 0) (onLoop qp0 {}) (fun u => (u.loop 0).failed && u.qp 0 0 == none && (u.loop 0).stat.getLsbD lsDown) := by decide +kernel
/-- A record header: magic, token count, batch. -/
def recHdr (magic ntok batch : Nat) : Nat := packLE [(0, 4, magic), (4, 4, ntok), (8, 8, batch)]
theorem test_first_packet : headerCause (loopEntry 0) (recHdr 0x4E49574C 2 0) 192 = none ∧ headerCause (loopEntry 0) (recHdr 0x4E49574C 9 0) 64 = some stTooLong ∧
    headerCause (loopEntry 0) (recHdr 0 2 0) 64 = some stDenied ∧
    after (.recordFirstPacket 0 0 true false 64 (recHdr 0x4E49574C 2 4)) (onLoop qp0 {}) (fun u => (u.qp 0 0).map (fun x => x.rcv.map (fun r => (r.slot, r.got))) == some (some (some 1, 64)) && (u.loopStream 0).claimed == [1]) ∧
    after (.recordFirstPacket 0 0 true true 64 (recHdr 0x4E49574C 2 4)) { onLoop qp0 {} with streams := [(0, { claimed := [1] })] } (fun u => u.qp 0 0 == some qp0 && (u.loop 0).answers == [.cnp 0, .rnr 0] && (u.loopStream 0).rnrs == 1) ∧
    after (.recordFirstPacket 0 0 true false 64 (recHdr 0 2 4)) (onLoop qp0 {}) (fun u => (u.qp 0 0).map (fun x => (x.rcv.map LoopRec.discard, x.sends.length)) == some (some true, 1) && (u.loop 0).inputReject == 1) ∧
    after (.recordFirstPacket 0 0 false false 64 0) (onLoop qp0 {}) (fun u => u.qp 0 0 == some qp0 && (u.loop 0).icrc == 1) := by decide +kernel
/-- A record of two tokens for slot 1 of which the header and 64 bytes have come. -/
def rec1 (e : Bool) : LoopRec := { hdr := recHdr 0x4E49574C 2 4, got := 128, slot := some 1, ended := e }
theorem test_other_packets : after (.sendMiddle 0 0 true false 32 5) (onLoop { qp0 with rcv := some (rec1 false) } {}) (fun u => (u.qp 0 0).map (fun x => x.rcv.map LoopRec.got) == some (some 160)) ∧
    after (.recordLastPacket 0 0 true false 64 5) (onLoop { qp0 with rcv := some (rec1 false) } {}) (fun u => (u.qp 0 0).map (fun x => x.rcv.map (fun r => (r.ended, r.cause))) == some (some (true, 0))) ∧
    after (.recordLastPacket 0 0 true false 63 5) (onLoop { qp0 with rcv := some (rec1 false) } {}) (fun u => (u.qp 0 0).map (fun x => x.rcv.map (fun r => (r.ended, r.cause))) == some (some (true, stDenied))) ∧
    after (.recordLastPacket 0 0 true false 63 5) (onLoop { qp0 with rcv := some { rec1 false with slot := none, discard := true } } {}) (fun u => (u.qp 0 0).map QPair.rcv == some none) := by decide +kernel
/-- The descriptor of slot 1 stands at its line: 16 + 1 + 1 × 9. -/
theorem test_descriptor : (onLoop qp0 {}).hold = [] ∧
    after (.descriptorWrite 0 0) (onLoop { qp0 with rcv := some { rec1 true with got := 192 } } {}) (fun u => u.qp 0 0 == some qp0 && fieldLE (u.holdLine 26).toNat 8 5 == 2 + 1 * 2 ^ 32) := by decide +kernel
/-- A reply for slot 1 of the query stream: its header, then its only line. -/
def reply2 (x : Nat) : Barge := { ty := 4, tenant := 0, src := 0, dst := 614, stream := 2, payload := BitVec.ofNat 512 x }
/-- Slot 1 of the query stream is FULL, delivered on queue pair 0. -/
def onQuery (sends : List LoopSend) : State :=
  { onLoop { qp0 with stream := 1, sends := sends } {} with streams := [(1, { full := [(1, (0, 0))] })], hold := [(64 * 26 + 12, 1#8)] }
theorem test_replies : (onQuery []).queryOf 0 2 = some 1 ∧ (onQuery []).slotState (loopEntry 1) 1 = 1 ∧ (onQuery []).discards 0 = false ∧ Memory.wf (onQuery []).hold = true ∧
    after (.replyFlit 0 614) { onQuery [] with transit := [reply2 (packLE [(0, 2, 1), (4, 4, 64)])] } (fun u => (u.loopStream 2).reply == some (1, 64, []) && u.transit == []) ∧
    after (.replyFlit 0 614) { onQuery [] with transit := [reply2 7], streams := [(1, { full := [(1, (0, 0))] }), (2, { reply := some (1, 65, []) })] } (fun u => (u.loopStream 2).reply.map (fun r => r.2.2.length) == some 64) ∧
    after (.replyFlit 0 614) { onQuery [] with transit := [reply2 7], streams := [(1, { full := [(1, (0, 0))] }), (2, { reply := some (1, 64, []) })] } (fun u => (u.loopStream 2).reply == none && (u.qp 0 0).map (fun x => x.sends.map LoopSend.slot) == some [some (1, 1)]) ∧
    after (.replyAck 0 0) (onQuery [{ bytes := [], slot := some (1, 1) }]) (fun u => (u.qp 0 0).map QPair.sends == some [] && u.slotState (loopEntry 1) 1 == 0) := by decide +kernel

/-! ### Faults and replay -/

/-- Granule 5 of tenant 0, all its tiles in context 0, which runs. -/
def onGran5 (gs : Tbl GranState) : State :=
  { State.reset with granules := (5, .owned 0) :: gs, tenants := [(0, { st := .active, ox := 5, width := 1, height := 1 })]
                     tiles := (List.range 16).map (fun i => (tileAt 5 i, { home := some 0, vx := 20 + i % 4, vy := i / 4 })), ctxs := [(0, { state := .running, loaded := true, started := true, index := 4 })] }
/-- A fault inside a granule: a spare of its column takes its place; without any, its domain is aborted. -/
theorem test_granule_fault : let s := onGran5 []
    s.gran 5 = .owned 0 ∧ s.chooseSpare 5 = some 517 ∧ (5 :: s.detoured).eraseDups.length ≤ 8 ∧ s.virtGran 5 = 5 ∧
    after (.linkFault (tileAt 5 0) 4 false) s (fun u => u.gran 5 == .unusable && u.gran 517 == .owned 0 && u.subst.find 5 == some 517) := by decide +kernel
theorem test_no_spare : let s := onGran5 ((List.range 64).map (fun i => (512 + i, .unusable)))
    s.chooseSpare 5 = none ∧ s.ctxsIn 5 = [0] ∧ after (.linkFault (tileAt 5 0) 5 false) s (fun u => u.gran 5 == .unusable && (u.ctx 0).state == .aborted) := by decide +kernel
/-- The east side of granule 5, its domain waiting until the side has drained. -/
def detoured5 : State := { onGran5 [] with detours := [(0, { granule := 5, side := 1, draining := true })] }
theorem test_detour : (besideGran physRows 5 1).isSome = true ∧ chargedSide physRows 5 1 = (5, 1) ∧ chargedSide physRows 6 3 = (5, 1) ∧
    (onGran5 []).freePaths.head? = some 0 ∧ (onGran5 []).sideCtxs 5 1 = [0] ∧
    after (.linkFault (tileAt 5 0) 1 true) (onGran5 []) (fun u => (u.detours.map (fun d => (d.1, d.2.granule, d.2.side, d.2.draining, d.2.lost))) == [(0, 5, 1, true, true)] && (u.ctx 0).holdReleases) ∧
    detoured5.sideEmpty 5 1 = true ∧
    (let s := { detoured5 with ctxs := [(0, { detoured5.ctx 0 with holdReleases := true, recovery := some { class_ := 2, granule := none, vgranule := (5, 0), detected := 0, lastFired := 4, lost := false } })] }
     after (.detourSwitch 0) s (fun u => u.detours.map (fun d => d.2.draining) == [false] && !(u.ctx 0).holdReleases && (u.ctx 0).recoveries == 1)) := by decide +kernel
/-- Tile 0 runs in a replayable domain that recovers from a lost flit; its boundary is lock 2 of microbatch 6. -/
def recovering : State :=
  { onTile (withMem (core 0 (0, 0) (0, 0))) with
    ctxs := [(0, { state := .running, loaded := true, started := true, index := 4, holdReleases := true, boundary := some { release5 with index := 2 }, boundaryMbn := 6
                   recovery := some { class_ := 2, granule := none, vgranule := (0, 0), detected := 0, lastFired := 4, lost := true } })]
    loads := [(0, { digest := 0, spill := 0, tiles := [{ vx := 0, vy := 0, entry := 9, fill := [7], ranges := [], syncs := [] }], replayable := true, copyBytes := 0 })], now := 9000 }
theorem test_replay_release : (recovering.replayBoundary 0).isSome = true ∧ recovering.isRoot 0 = true ∧ (recovering.imageOf 0 (recovering.tile 0)).isSome = true ∧
    after (.replayRelease 0) recovering (fun u => (u.ctx 0).index == 2 && (u.ctx 0).mbn == 6 && (u.ctx 0).recovery == none && (u.tile 0).core.pc == 9#12 && (u.tile 0).mem.read 64 == 0x81#8 && (u.tile 0).ibuf == [(0, 7#32)]) := by decide +kernel

/-! ### Stacks, the Lockkeeper, the start, power and clocks -/

theorem test_stack_failure : takingUnit 15 = 8 ∧
    after (.stackFailure 15) State.reset (fun u => (u.stack 15).failed && (u.stack 8).takeover && (u.stack 9).degraded && !(u.stack 16).degraded && (u.quadrant 1).failed == [7]) ∧
    after (.backgroundRebuildDone 1) (({ State.reset with quadrants := [(1, { failed := [7] })] }).setStack 8 { rebuilding := true }) (fun u => (u.quadrant 1).rebuilt && (u.stack 8).progress == 100) ∧
    after (.backgroundRebuildDone 1) (({ State.reset with quadrants := [(1, { failed := [7, 3] })] }).setStack 8 { rebuilding := true }) (fun u => !(u.quadrant 1).rebuilt) := by decide +kernel
/-- A block that runs: bank A's image in force, the Lockkeeper READY, every power domain on, coolant verified. -/
def live : State :=
  { State.reset with boot := { pg := true, phase := .ready, running := some { bank := 0, release := 0x402, svn := 0, digest := 0 } }, lk := { state := .ready }
                     power := { pdOn := 0xFFFFF, flowOk := true }, now := 200000000000, entropy := { st := .ok, seeded := true } }
theorem test_lockkeeper_restarts : after .sramCopyError live (fun u => u.lk.state == .failed) ∧
    after (.lockstepMismatch 0) live (fun u => u.lk.state == .restarting && u.lk.pair0.since == some 200000000000) ∧
    after (.firmwareWatchdog 1) live (fun u => u.lk.state == .ready && u.lk.pair1.since == some 200000000000) ∧
    after (.firmwareWatchdog 1) { live with lk := { state := .ready, pair1 := { recent := [199500000000, 199600000000] } } } (fun u => u.lk.state == .failed) ∧
    after (.warmRestartEnd 0) { live with lk := { state := .restarting, pair0 := { since := some 5 } } } (fun u => u.lk.state == .ready && u.lk.pair0.since == none) := by decide +kernel
theorem test_service_contact : after (.pwrGoodRise 3 true 0 0 [] false 3000 5) State.reset (fun u => u.boot.phase == .service && u.boot.profsel == 3 && u.mgmtAddress == 0x65) := by decide +kernel
/-- A start boots bank A; with neither bank bootable it halts. -/
theorem test_start : State.reset.boot.pg = false ∧ State.reset.boot.aux = true ∧
    ((State.reset.freshStart 0 0 {}).chooseBank (State.reset.freshStart 0 0 {}).bankOrder).2.map Prod.fst = some 0 ∧
    after (.pwrGoodRise 0 false 0 0 [] false 3000 0) { State.reset with nv := { bankA := { valid := true, fails := 3 } } } (fun u => u.boot.phase == .halted && u.boot.running == none) := by decide +kernel
theorem test_start_ready : after .startReady { live with boot := { live.boot with phase := .starting } } (fun u => u.boot.phase == .ready && u.boot.attnUntil == 200100000000 && u.lk.state == .ready) ∧
    after .startWatchdog { live with boot := { live.boot with phase := .starting }, nv := { bankA := {} } } (fun u => u.boot.watchFrom == 200000000000 && u.hold == []) := by decide +kernel
theorem test_supplies_fall : after (.pwrGoodFall 2 []) { live with tiles := [(0, core 0 (1, 1) (0, 0))] } (fun u => u.boot.phase == .off && u.tile 0 == {} && u.power == {}) ∧
    after .mainOvercurrent { live with ctxs := [(0, { state := .running })] } (fun u => u.power.pdOn == 1 && (u.ctx 0).state == .aborted) ∧
    after (.auxiliarySupply false false) { live with nv := { live.nv with rtc := { count := 9 } } } (fun u => u.boot.phase == .off && u.nv.rtc == {}) := by decide +kernel
/-- Readings of 25 °C at the inlet and 75 L/min in each loop, corrected; 17.9 °C is too cold, and 39.99 L/min too little. -/
theorem test_flow : (live.coolantReading (400 - live.calValue 0x0500) 0 (7500 - live.calValue 0x0502) (7500 - live.calValue 0x0503) 0).adequate = true ∧
    (live.coolantReading (287 - live.calValue 0x0500) 0 (7500 - live.calValue 0x0502) (7500 - live.calValue 0x0503) 0).adequate = false ∧
    (live.coolantReading 0 0 (3999 - live.calValue 0x0502) (7500 - live.calValue 0x0503) 0).flow = 3999 := by
  simp [State.coolantReading, Coolant.adequate, Coolant.flow] <;> decide
theorem test_flow_states : { live with boot := { live.boot with phase := .starting } }.groupWanted 3 = true ∧ live.power.flowOk = true ∧
    after .flowLostTimeout { live with power := { live.power with flowOk := false, flowLostAt := some 195000000000 }, ctxs := [(0, { state := .running })] } (fun u => u.power.shutOff && (u.ctx 0).state == .aborted) ∧
    after .coolantNotVerified { live with boot := { live.boot with phase := .starting }, power := {} } (fun u => u.boot.notVerifiedAt == 200000000000) := by decide +kernel
/-- R468: 34 °C lowers the cap by 2 × 625 W; 36 L/min halves it. -/
theorem test_derating : effectiveCap 23000 (34 * 16) 7500 = 21750 ∧ effectiveCap 23000 400 3600 = 11500 ∧ live.power.pdOn.getLsbD 0 = true := by decide
theorem test_group_off : { live with power := { live.power with idleSince := [(3, 199990000000)] } }.groupWanted 3 = false ∧
    after (.computeGroupOffTimer 3) { live with power := { live.power with idleSince := [(3, 199990000000)] } } (fun u => !u.groupOnNow 3 && (u.die 6).state == .off) := by decide +kernel
theorem test_governor : after (.governorInterval [400] 24000 []) live (fun u => u.power.overCap && (u.die 0).draw == 400 && u.power.total == 24000#16) := by decide +kernel
/-- A Timed domain holds its die at STEP 34; an Elastic one alone on its die leaves it free. -/
theorem test_fixed_and_free_dies : let s := fun (e : Bool) => { onTile (core 0 (0, 0) (0, 0)) with
      granules := [(0, .owned 0)], tenants := [(0, { st := .active, width := 1, height := 1 })], ctxs := [(0, { state := .running, loaded := true, elastic := e })] }
    (s false).dieFixed 0 = true ∧ (s true).dieFree 0 0 = true ∧ ((s true).elasticOf 0).contains 0 = true := by decide +kernel
/-- Twelve readings of a die that come to `r` each once corrected. -/
theorem test_thermal (r : Int) : (dieGrans 0).length = 12 ∧
    hottest (((dieGrans 0).zip ((dieGrans 0).map (fun g => r - live.calValue g))).map (fun p => p.2 + live.calValue p.1)) = r := by
  have h : dieGrans 0 = [0, 1, 2, 3, 32, 33, 34, 35, 64, 65, 66, 67] := by decide +kernel
  rw [h]; simp [hottest]
theorem test_trip_ends_with_a_region : let s := { live with power := { live.power with pdOn := 1, tripped := [(0, 190000000000)] }, granules := [(0, .owned 0)] }
    s.groupWanted 0 = true ∧ after (.tripHoldEnd 0) s (fun u => u.groupOnNow 0) := by decide +kernel
theorem test_gating : let s := { onTile { stalled (.swait 5 9) with core := { (stalled (.swait 5 9)).core with waitedNs := 4001 }, xe := { waitedNs := 4001 } } with ctxs := [] }
    s.lendNs 0 = 4000 ∧ s.engineWaits 0 2 = true ∧
    after (.engineClockGate 0 3) s (fun u => (u.tile 0).core.gated) ∧ after (.engineClockGate 0 2) s (fun u => (u.tile 0).xe.gated && !(u.tile 0).core.gated) := by decide +kernel
/-- A die without work stops, and a request wakes it, merging it into its neighbours' clocks. -/
theorem test_die_clock : let s := { live with dies := [(0, { state := .running })] }
    s.clocked 0 = true ∧ s.dieTimed 0 = false ∧ (dieGrans 0).all (fun g => s.wharfQuiet g && (granTiles g).all (fun t => s.tileQuiet t)) = true ∧
    after (.dieClockStop 0) s (fun u => (u.die 0).state == .stopped) ∧
    after (.wakeRequest 0 true) { live with dies := [(0, { state := .stopped })] } (fun u => (u.die 0).state == .running && u.power.xingOvr.getLsbD 0) := by decide +kernel
theorem test_tick : after .timeBaseTick { onTile (core 0 (0, 0) (0, 0)) with boot := live.boot } (fun u => u.now == 1 && ((u.tile 0).lock.acct.toList.getD 0 0) == 1#64) := by decide +kernel
theorem test_clock_tick : (({ frac := 999999999000000000 } : Rtc).tick 0).count = 1 ∧ (({ frac := 999999999000000000 } : Rtc).tick (-1)).count = 0 ∧
    after .rtcRangeEnd { live with nv := { live.nv with rtc := { count := 146097 * 86400, valid := true } } } (fun u => !u.nv.rtc.valid) ∧
    after (.cellMeasure 2900) { live with now := 3600000000000 } (fun u => u.nv.rtc.cellMv == 2900) := by decide +kernel
theorem test_mctp : after (.mctpRequest 0 0 0) live (fun u => u.boot.mctp == [.control]) ∧ after (.mctpRequest 1 4 (-3)) live (fun u => u.boot.mctp == [.sensor 4 (-3)]) ∧
    after (.mctpRequest 1 11 0) live (fun u => u.boot.mctp == [.unsupported]) := by decide +kernel

/-! ### The mailbox -/

/-- The command `code` for slot `slot` with its fields. -/
def command (code slot : Nat) (l : List (Nat × Nat × Nat)) : Nat := packLE ([(0, 2, code), (3, 1, slot), (4, 2, 240)] ++ l)
/-- Function `f` in a session of the newest version, the command `c` accepted; tenant 0 ACTIVE on granule 0. -/
def ask (s : State) (f c : Nat) : State :=
  { s with vfs := (4, 4), fns := [(f, { version := some mbxMax, accepted := some (BitVec.ofNat 2048 c, 0#16), busy := true })] }
def tenant0 : Tenant := { st := .active, width := 1, height := 1, sizeGib := 1, canal := 1, keys := some 0 }
/-- `live` with tenant 0. -/
def owned : State := { live with tenants := [(0, tenant0)], granules := [(0, .owned 0)], tiles := [(0, core 0 (0, 0) (0, 0))], dies := [(0, { state := .running })] }
/-- The command passes the common checks, and what follows satisfies `p`. -/
def asked (i : Nat → Instr) (s : State) (f c : Nat) (p : State → Bool) : Bool :=
  decide (f < 514) && (ask s f c).underWay f == some c && (ask s f c).refusal f c == none && after (i f) (ask s f c) p
/-- The immediate outcome. -/
def answered (u : State) (f status : Nat) : Bool := ((u.fn f).resp.map Resp.status) == some status
/-- The generation begun in slot 2 has this outcome. -/
def settles (u : State) (f status : Nat) : Bool := (((slotAt u f 2).ready.map ResultRec.status) == some status) && (slotAt u f 2).running && answered u f stOK
def waits (u : State) (f : Nat) : Bool := (slotAt u f 2).ready == none && (slotAt u f 2).running

theorem test_doorbell : live.fnExists 0 = true ∧
    after (.doorbell 0 1) live (fun u => (u.fn 0).busy && (u.fn 0).accepted.isSome && (u.fn 0).resp == none) ∧
    after (.doorbell 0 1) { live with lk := { state := .restarting } } (fun u => answered u 0 stBusy) ∧
    after (.doorbell 0 1) { live with fns := [(0, { busy := true })] } (fun u => (u.fn 0).doorbellDropped) := by decide +kernel
theorem test_page_writes : barAccess 0x1F8 8 = true ∧ after (.mbxWrite 0 0x1F8 8 0x1122334455667788) live (fun u => fieldLE (u.fn 0).cmd.toNat 248 8 == 0x1122334455667788) ∧
    after (.mbxWrite 0 0x100 4 7) { live with fns := [(0, { busy := true })] } (fun u => (u.fn 0).writeDropped && (u.fn 0).cmd == 0) ∧
    after (.mbxWrite 0 0x18 4 0x12345) live (fun u => (u.fn 0).seq == 0x2345#16) ∧
    after (.registerWrite 0 0 4 0x50003) live (fun u => (u.fn 0).irqRsp && (u.fn 0).irqEvt && (u.fn 0).eqHead == 5) ∧
    after (.registerWrite 0 8 4 0x20) { live with fns := [(0, { doorbellDropped := true, writeDropped := true })] } (fun u => !(u.fn 0).doorbellDropped && (u.fn 0).writeDropped) := by decide +kernel
theorem test_completion : after (.commandComplete 0) { live with fns := [(0, { busy := true, irqRsp := true, accepted := some (0, 9), resp := some Resp.done })] }
      (fun u => (u.fn 0).rspValid && !(u.fn 0).busy && (u.fn 0).msix == [] && (u.fn 0).pba == 1#2 && fieldLE (u.fn 0).rsp.toNat 0 2 == 9 &&
        u.bar0Read 0 0x200 4 == 9 && u.bar0Read 0 8 8 == 5) ∧
    after (.registerWrite 0 0x1000C 4 0) { live with fns := [(0, { pba := 1 })] } (fun u => (u.fn 0).msix == [0] && (u.fn 0).pba == 0) ∧
    after (.deferredCommandComplete 0 2) { live with fns := [(0, { slots := [(2, { gen := 1, running := true, ready := some ⟨1, 5, stOK, 0, 0, 0, 0⟩ })] })] }
      (fun u => !(slotAt u 0 2).running && (slotAt u 0 2).done == some ⟨1, 5, stOK, 0, 0, 0, 0⟩) := by decide +kernel
/-- A code of no command is answered without an effect of its own. -/
theorem test_unknown_command : cmdRow 0x0999 = none ∧ after (.commandComplete 0) (ask live 0 (command 0x0999 0 [])) (fun u => (u.fn 0).rspValid && fieldLE (u.fn 0).rsp.toNat 2 2 == stNoCap) := by decide +kernel
theorem test_function_resets : after (.functionLevelReset 1) (ask owned 1 0) (fun u => (u.fn 1).version == none && (u.fn 1).epoch == 1 && (u.tenant 0).st == .resetting) ∧
    after (.perstAssert 0 true) (ask owned 1 0) (fun u => (u.fn 1).version == none && u.vfs == (0, 4)) ∧
    after (.vfEnableClear 0) { ask owned 1 0 with vfs := (4, 0) } (fun u => u.vfs == (0, 0) && (u.tenant 0).st == .releasing) := by decide +kernel
theorem test_configuration_requests : after (.pcieConfigRequest 0 true (some 3)) live (fun u => u.boot.configAnswers == [(0, false)] && u.vfs == (3, 0)) ∧
    after (.pcieConfigRequest 0 true none) { live with boot := { live.boot with phase := .starting, riseAt := 199200000000 } } (fun u => u.boot.configAnswers == [(0, true)]) := by decide +kernel
/-- REG_READ of a lock-tree register while its access hangs twice. -/
theorem test_access_watchdog : let s := ask owned 0 (command 0x0505 0 [(16, 1, 9), (18, 2, 0), (20, 4, 0)])
    (s.accessOf 0 (command 0x0505 0 [(16, 1, 9), (18, 2, 0), (20, 4, 0)])).isSome = true ∧
    after (.mgmtAccessWatchdog 0 true) s (fun u => answered u 0 stTenantFault && u.power.status.getLsbD pwMgmtHang) := by decide +kernel

/-! ### Commands -/

theorem test_hello : asked .hello { owned with fns := [] } 1 (command 0x0001 0 [(16, 1, 0), (17, 1, 2), (18, 1, 9), (19, 1, 9)]) (fun u => (u.fn 1).version == some mbxMax && answered u 1 stOK) ∧
    asked .hello owned 1 (command 0x0001 0 [(16, 1, 0), (17, 1, 9), (18, 1, 9), (19, 1, 9)]) (fun u => (u.fn 1).version == none && answered u 1 stVersion) := by decide +kernel
theorem test_goodbye : asked .goodbye owned 1 (command 0x0002 0 []) (fun u => (u.fn 1).version == none && answered u 1 stOK) := by decide +kernel
theorem test_event_queue : asked .eqConfig owned 1 (command 0x0003 0 [(16, 8, 0x4000), (24, 1, 16)]) (fun u => (u.fn 1).eq == some ⟨0x4000, 16, 0, true, 0⟩) ∧
    asked .eqConfig owned 1 (command 0x0003 0 [(16, 8, 0x4000), (24, 1, 17)]) (fun u => answered u 1 stDenied) := by decide +kernel
/-- Slot 5 of function 1 holds generation 3. -/
def withResult (s : State) : State := { s with fns := s.fns.map (fun p => (p.1, { p.2 with slots := [(5, { gen := 3, done := some ⟨3, 0x0302, stOK, 0, 0, 4, 77⟩ })] })) }
theorem test_read_result : let c := fun g => command 0x0004 0 [(16, 1, 5), (20, 4, g)]
    let s := fun g => withResult (ask owned 1 (c g))
    (s 3).underWay 1 = some (c 3) ∧ (s 3).refusal 1 (c 3) = none ∧
    after (.readResult 1) (s 3) (fun u => (slotAt u 1 5).read && ((u.fn 1).resp.map (fun r => fieldLE r.data.toNat 16 224)) == some 77) ∧
    after (.readResult 1) (s 4) (fun u => answered u 1 stNotReady) ∧ after (.readResult 1) (s 2) (fun u => answered u 1 stDenied) := by decide +kernel
theorem test_get_random : asked .getRandom owned 1 (command 0x0005 2 [(16, 2, 225)]) (fun u => settles u 1 stDenied) ∧
    live.drawNow true = .waits ∧ asked .getRandom owned 1 (command 0x0005 2 [(16, 2, 224), (18, 1, 1)]) (fun u => waits u 1 && u.entropy.waiting.length == 1) ∧
    { live with entropy := { live.entropy with reseedAt := live.now } }.drawNow false = .served := by decide +kernel
/-- A command of a code it is not for, of a VF without the right, and of a tenant that is not ACTIVE. -/
theorem test_refusals : (ask owned 1 (command 0x0101 0 [])).refusal 1 (command 0x0101 0 []) = some (Resp.denied 1 0) ∧
    (ask live 1 (command 0x0202 0 [])).refusal 1 (command 0x0202 0 []) = some (Resp.denied 6 0) ∧
    (ask owned 1 (command 0x0202 2 [])).refusal 1 (command 0x0202 2 []) = some (Resp.denied 2 3) ∧
    after (.seedSet 1) (ask owned 1 (command 0x0202 2 [])) (fun u => answered u 1 stDenied) ∧
    after (.telemetryCoolant 1) (ask owned 1 (command 0x0508 2 [(16, 1, 1)])) (fun u => answered u 1 stDenied) ∧
    after (.beagleStop 0) (ask owned 0 (command 0x0804 0 [(16, 1, 2)])) (fun u => answered u 0 stDenied) := by decide +kernel

/-- Set-up of tenant 1 on granules (1, 0) to (2, 0) with 1 GiB. -/
def setup1 : Nat := command 0x0101 2 [(16, 1, 1), (17, 1, 1), (18, 1, 0), (19, 1, 2), (20, 1, 1), (24, 2, 0xFFFF), (26, 2, 1), (28, 2, 2)]
theorem test_tenant_setup : (match (ask live 0 setup1).reserve setup1 with | .ok t => t.grans == [1, 2] | _ => false) = true ∧
    asked .tenantSetup live 0 setup1 (fun u => waits u 0 && (u.tenant 1).st == .settingUp && u.gran 2 == .owned 1 && u.gran 3 == .clean) ∧
    asked .tenantSetup { live with entropy := { st := .failed } } 0 setup1 (fun u => settles u 0 stEntropy && (u.tenant 1).st == .free && u.gran 2 == .clean) ∧
    asked .tenantSetup { live with granules := [(2, .dirty)] } 0 setup1 (fun u => settles u 0 stNoResource && (u.tenant 1).st == .free) := by decide +kernel
/-- A pool from which the keys can be drawn. -/
theorem test_keys_drawn : { live with entropy := { st := .ok, seeded := true, pool := [1], reseedAt := live.now } }.drawNow true = .served ∧
    { live with entropy := { st := .ok, seeded := true, pool := [1] } }.reseedDue = true := by decide
theorem test_tenant_reset : asked .tenantReset owned 0 (command 0x0102 2 [(16, 1, 0)]) (fun u => waits u 0 && (u.tenant 0).st == .resetting && (u.tenant 0).joined.length == 1) ∧
    asked .tenantReset owned 0 (command 0x0102 2 [(16, 1, 9)]) (fun u => settles u 0 stDenied) ∧
    owned.outstanding 0 = false ∧ after (.tenantResetComplete 0 []) { owned with tenants := [(0, { tenant0 with st := .resetting })] } (fun u => (u.tenant 0).st == .active && u.tile 0 == { u.tile 0 with core := {}, mem := [] }) ∧
    after (.tenantResetComplete 0 [0]) { owned with tenants := [(0, { tenant0 with st := .releasing })] } (fun u => (u.tenant 0).st == .free && u.gran 0 == .unusable) := by decide +kernel
theorem test_tenant_release : asked (fun f => .tenantRelease f []) owned 0 (command 0x0103 2 [(16, 1, 0)]) (fun u => (u.tenant 0).st == .releasing || (u.tenant 0).st == .free) ∧
    asked (fun f => .tenantRelease f []) { owned with tenants := [(0, { tenant0 with st := .resetting })] } 0 (command 0x0103 2 [(16, 1, 0)]) (fun u => waits u 0 && (u.tenant 0).releaseWanted) ∧
    asked (fun f => .tenantRelease f []) owned 0 (command 0x0103 2 [(16, 1, 9)]) (fun u => settles u 0 stOK) ∧
    after (.releaseBasinTimeout 0 []) { owned with tenants := [(0, { tenant0 with st := .releasing })], fabric := { tags := [(0, { req := reply1 1 })] } } (fun u => (u.tenant 0).st == .free && u.fabric.tags.all (fun e => e.2.dead)) := by decide +kernel
theorem test_tenant_query : asked .tenantQuery owned 1 (command 0x0104 0 [(16, 1, 0)]) (fun u => answered u 1 stOK) ∧ asked .tenantQuery owned 1 (command 0x0104 0 [(16, 1, 1)]) (fun u => answered u 1 stDenied) := by decide +kernel
theorem test_policies : asked .tenantPolicy owned 0 (command 0x0105 0 [(16, 1, 0), (24, 8, 6)]) (fun u => !(u.tenant 0).debug && (u.tenant 0).lendOut && (u.tenant 0).lendIn) ∧
    asked .tenantPolicy owned 0 (command 0x0105 0 [(16, 1, 0), (24, 8, 8)]) (fun u => answered u 0 stOK && !(u.tenant 0).debug) ∧
    asked .setDevPolicy owned 0 (command 0x0507 0 [(24, 8, 1)]) (fun u => u.crossLend && answered u 0 stOK) ∧
    (owned.tenantRuns 0 = false ∧ { owned with ctxs := [(0, { state := .running })] }.tenantRuns 0 = true) := by decide +kernel
theorem test_slot_repack : asked .slotRepack owned 0 (command 0x0503 2 []) (fun u => settles u 0 stOK && (u.tenant 0).canalSlots.length == 1) ∧
    asked .slotRepack { owned with ctxs := [(0, { state := .running })] } 0 (command 0x0503 2 []) (fun u => settles u 0 stNeedsQuiesce) := by decide +kernel

/-- Host memory with a descriptor list at 0x1000 that names `l` at 0x2000. -/
def withList (s : State) (l : List Byte) : State :=
  { s with hostMem := Mem.writeBytes (Mem.writeLE (Mem.writeLE [] 0x1000 8 0x2000) 0x1008 8 (l.length + 2 ^ 32)) 0x2000 l }
def bytesOf (l : List (Nat × Nat × Nat)) (n : Nat) : List Byte := bytesLE n (packLE l)
/-- A byte string that is no image, an image load that meets a bus error, and a malformed list. -/
theorem test_load : let s := withList owned (bytesOf [(0, 8, 5)] 64)
    let c := command 0x0201 2 [(8, 8, 0x1000)]
    (s.descFault c = none) ∧ (match parseImage (s.descBytes c) with | .error _ => true | _ => false) = true ∧
    asked (fun f => .load f 0 0 false false) s 1 c (fun u => ((slotAt u 1 2).ready.isSome) && u.loads == [] && u.tiles == s.tiles) ∧
    asked (fun f => .load f 0 0 false true) s 1 c (fun u => settles u 1 stIntegrity && u.loads == []) ∧
    asked (fun f => .load f 0 0 false false) owned 1 c (fun u => answered u 1 stDenied) := by decide +kernel
theorem test_permute : let s := { withList owned (bytesOf [(0, 8, 5)] 128) with ctxs := [(0, { state := .halted, loaded := true })] }
    let c := command 0x0304 2 [(8, 8, 0x1000), (16, 2, 0)]
    s.descFault c = none ∧ parsePermutation (s.descBytes c) = none ∧
    asked (fun f => .permute f false true [] []) s 1 c (fun u => settles u 1 stDenied && u.ushd == s.ushd) := by decide +kernel
theorem test_seed : asked .seedSet owned 1 (command 0x0202 0 [(16, 2, 3), (24, 8, 5), (32, 8, 6)]) (fun u => (u.ctx 3).k0 == 5 && (u.ctx 3).k1 == 6 && (u.ctx 3).seedMarked) ∧
    asked .seedSet { owned with ctxs := [(3, { state := .running })] } 1 (command 0x0202 0 [(16, 2, 3)]) (fun u => answered u 1 stNeedsQuiesce) ∧
    asked .seedDraw { owned with entropy := { st := .failed } } 1 (command 0x0203 2 [(16, 2, 3)]) (fun u => settles u 1 stEntropy) ∧
    asked .seedDraw { owned with ctxs := [(3, { state := .running })] } 1 (command 0x0203 2 [(16, 2, 3)]) (fun u => answered u 1 stNeedsQuiesce) := by decide +kernel
theorem test_update_registers : asked .updRead owned 1 (command 0x0301 0 [(16, 2, 0)]) (fun u => answered u 1 stOK && ((u.fn 1).resp.map Resp.len) == some 72) := by decide +kernel
theorem test_export_import : let s := withList owned (bytesOf [] 64)
    asked (fun f => .exportShards f false) s 1 (command 0x0302 2 [(8, 8, 0x1000)]) (fun u => (slotAt u 1 2).ready.isSome && u.hold == []) ∧
    asked (fun f => .exportShards f true) s 1 (command 0x0302 2 [(8, 8, 0x1000)]) (fun u => settles u 1 stIntegrity) ∧
    asked (fun f => .importShards f true) s 1 (command 0x0303 2 [(8, 8, 0x1000)]) (fun u => settles u 1 stIntegrity) ∧
    asked (fun f => .importShards f false) s 1 (command 0x0303 2 [(8, 8, 0x1000)]) (fun u => (slotAt u 1 2).ready.isSome) ∧
    asked (fun f => .importShards f false) { s with ctxs := [(0, { state := .running })] } 1 (command 0x0303 2 [(8, 8, 0x1000)]) (fun u => answered u 1 stNeedsQuiesce) := by decide +kernel

/-- Context 0 of tenant 0 as given. -/
def domain0 (cx : Ctx) : State := { owned with ctxs := [(0, cx)] }
theorem test_domain_read_write : asked .domainRead (domain0 { period := 777 }) 1 (command 0x0401 0 [(16, 2, 0)]) (fun u => ((u.fn 1).resp.map (fun r => fieldLE r.data.toNat 8 8)) == some 777) ∧
    asked .domainWrite (domain0 {}) 1 (command 0x0402 0 [(16, 2, 0), (18, 2, 8), (24, 8, 250)]) (fun u => (u.ctx 0).period == 250 && answered u 1 stOK) ∧
    asked .domainWrite (domain0 { loaded := true, pProved := 251 }) 1 (command 0x0402 0 [(16, 2, 0), (18, 2, 8), (24, 8, 250)]) (fun u => (u.ctx 0).period == 1000 && answered u 1 stDenied) ∧
    asked .domainWrite (domain0 { state := .running }) 1 (command 0x0402 0 [(16, 2, 0), (18, 2, 0x40), (24, 8, 250)]) (fun u => answered u 1 stNeedsQuiesce) := by decide +kernel
theorem test_domain_start : asked .domainStart (domain0 { loaded := true, enable := true }) 1 (command 0x0403 0 [(16, 2, 0)]) (fun u => (u.ctx 0).state == .forming && (u.ctx 0).formedHere) ∧
    asked .domainStart (domain0 { loaded := true }) 1 (command 0x0403 0 [(16, 2, 0)]) (fun u => answered u 1 stDenied && (u.ctx 0).state == .stopped) := by decide +kernel
theorem test_domain_form : let s := { domain0 { loaded := true, enable := true, spans := true, domainId := 40 } with fabric := { grants := [(40, grant40 true)] } }
    s.grantOf 0 = some (grant40 true) ∧ (s.ctx 0).mayStart true = true ∧ (grant40 true).edges.all (fun t => (s.trunkPort t).isSome) = false ∧
    asked .domainForm s 1 (command 0x0404 2 [(16, 2, 0)]) (fun u => waits u 1 && (u.ctx 0).state == .forming) ∧
    asked .domainForm (domain0 {}) 1 (command 0x0404 2 [(16, 2, 0)]) (fun u => answered u 1 stDenied) := by decide +kernel
theorem test_domain_resume : let s := domain0 { state := .halted, started := true, index := 5, heldRelease := some release5 }
    s.isRoot 0 = true ∧ (s.ctx 0).resumable = true ∧
    asked .domainResume s 1 (command 0x0407 0 [(16, 2, 0)]) (fun u => (u.ctx 0).state == .running && (u.ctx 0).release.isSome && (u.ctx 0).fireTime == u.now) ∧
    asked .step s 1 (command 0x0805 2 [(16, 2, 0), (20, 4, 3)]) (fun u => waits u 1 && (u.ctx 0).haltAt == [8] && (u.ctx 0).state == .running) ∧
    asked .step s 1 (command 0x0805 2 [(16, 2, 0), (20, 4, 0)]) (fun u => answered u 1 stDenied) := by decide +kernel
theorem test_domain_abort : asked .domainAbort (domain0 { state := .running }) 1 (command 0x0408 2 [(16, 2, 0)]) (fun u => settles u 1 stAborted && (u.ctx 0).state == .aborted) ∧
    asked .domainAbort (domain0 {}) 1 (command 0x0408 2 [(16, 2, 0)]) (fun u => settles u 1 stDenied) ∧
    asked .domainAbort (domain0 { state := .running, started := true, huuIndex := 4, upd := { run := some { t := 1, lock := 4, norm := 0, skip := false, c := 0, groups := [], factorDone := [], blocksDone := [], digests := [] } } })
      1 (command 0x0408 2 [(16, 2, 0)]) (fun u => waits u 1 && (u.ctx 0).aborting && (u.ctx 0).state == .running) := by decide +kernel
/-- A set for lock 9 with one item, the mode. -/
def set9 : List Byte := bytesOf [(0, 8, 9), (8, 4, 1), (16, 2, itMode), (18, 2, 8), (24, 8, 1)] 32
theorem test_domain_stage : let s := withList (domain0 { state := .running, started := true, index := 4 }) set9
    let c := command 0x0405 2 [(8, 8, 0x1000), (16, 2, 0)]
    s.stageFault 0 c = none ∧ (match readSet (s.descBytes c) with | .ok (t, _, _) => t == 9 | _ => false) = true ∧
    asked (fun f => .domainStage f false) s 1 c (fun u => waits u 1 && ((u.ctx 0).staged.map Staged.target) == some 9 && ((u.ctx 0).staged.bind Staged.armed) == none) ∧
    asked (fun f => .domainStage f true) s 1 c (fun u => settles u 1 stIntegrity && (u.ctx 0).staged == none) ∧
    asked (fun f => .domainStage f false) (withList (domain0 {}) []) 1 c (fun u => answered u 1 stDenied) := by decide +kernel
/-- A set whose lock is due or past is armed at the next lock, in late mode where it is past. -/
theorem test_staging_late : let cx : Ctx := { state := .running, started := true, index := 4 }
    (cx.stage 1 2 5 0 []).armed = some 5 ∧ (cx.stage 1 2 5 0 []).lateMode = false ∧ (cx.stage 1 2 4 0 []).lateMode = true ∧ (cx.stage 1 2 6 0 []).armed = none := by decide
theorem test_domain_withdraw : let g : Staged := { target := 9, digest := 0, items := [], acceptedAt := 4, onStopped := false, armed := none, lateMode := false, fn := 1, slot := 3 }
    asked .domainWithdraw (domain0 { state := .running, staged := some g }) 1 (command 0x0406 0 [(16, 2, 0)]) (fun u => (u.ctx 0).staged == none && answered u 1 stOK) ∧
    asked .domainWithdraw (domain0 { state := .running, staged := some { g with armed := some 5 } }) 1 (command 0x0406 0 [(16, 2, 0)]) (fun u => (u.ctx 0).staged.isSome && answered u 1 stBusy) ∧
    asked .domainWithdraw (domain0 {}) 1 (command 0x0406 0 [(16, 2, 0)]) (fun u => answered u 1 stDenied) := by decide +kernel
/-- A root grant of domain 40 for tenant 0 with child trunk 0, one slot pair. -/
def grantFields (k : Nat) : List (Nat × Nat × Nat) := [(16, 2, 40), (18, 1, 0), (19, 1, 0x80), (20, 1, 0xFF), (21, 1, 1), (22, 1, 0xFF), (23, 1, k)]
theorem test_domain_grant : let g := grantOfBytes (fieldLE (command 0x0410 0 (grantFields 1)) 16 64)
    g.badField = none ∧ owned.grantFits g = true ∧ (grantOfBytes (fieldLE (command 0x0410 0 (grantFields 3)) 16 64)).badField = some 23 ∧
    asked .domainGrant owned 0 (command 0x0410 0 (grantFields 1)) (fun u => answered u 0 stOK && u.fabric.grants.find 40 == some g) ∧
    asked .domainGrant owned 0 (command 0x0410 0 (grantFields 3)) (fun u => answered u 0 stDenied && u.fabric.grants == []) := by decide +kernel
theorem test_fabric_config : asked .fabricConfig owned 0 (command 0x0411 0 [(16, 2, 12287), (18, 1, 1), (20, 4, 2500)]) (fun u => u.fabric.devid == 12287 && u.fabric.master && u.fabric.fmax == 2500) ∧
    asked .fabricConfig owned 0 (command 0x0411 0 [(16, 2, 12288)]) (fun u => answered u 0 stDenied && u.fabric.devid == 0) := by decide +kernel

theorem test_set_profile : asked .setProfile owned 0 (command 0x0501 0 [(16, 1, 4)]) (fun u => answered u 0 stDenied) ∧ owned.quiescent = true ∧
    asked .setProfile (domain0 { state := .running }) 0 (command 0x0501 0 [(16, 1, 1)]) (fun u => answered u 0 stNeedsQuiesce) := by decide +kernel
/-- The stored profile of number 2 is well-formed. -/
theorem test_profile_ok : owned.storedProfile 2 = Profile.default 2 := by rfl
theorem test_power_cap : asked .powerCap owned 0 (command 0x0502 0 [(16, 4, 8000)]) (fun u => u.power.cap == 8000 && answered u 0 stOK) ∧
    asked .powerCap owned 0 (command 0x0502 0 [(16, 4, 7999)]) (fun u => u.power.cap == 23000 && answered u 0 stDenied) := by decide +kernel
theorem test_register_commands : asked .regRead owned 0 (command 0x0505 0 [(16, 1, 2), (18, 2, 0), (20, 4, 0x1000), (24, 1, 28)]) (fun u => ((u.fn 0).resp.map Resp.len) == some 224) ∧
    asked .regRead { owned with power := { pdOn := 1 } } 0 (command 0x0505 0 [(16, 1, 2), (18, 2, 0), (20, 4, 0x1000), (24, 1, 1)]) (fun u => answered u 0 stNotReady) ∧
    asked .regRead owned 0 (command 0x0505 0 [(16, 1, 10), (24, 1, 1)]) (fun u => answered u 0 stDenied) ∧
    asked .regWrite owned 0 (command 0x0506 0 [(16, 1, 8), (20, 4, 0x110), (24, 1, 1), (32, 8, 3)]) (fun u => answered u 0 stOK) ∧
    unitW1c 8 0x110 = true ∧ asked .regWrite owned 0 (command 0x0506 0 [(16, 1, 8), (20, 4, 0x100), (24, 1, 1)]) (fun u => answered u 0 stDenied) := by decide +kernel

/-- One sample of each kind; monitor slot 3 of granule 0. -/
def measured : State :=
  { domain0 {} with power := { owned.power with samples := [(0, [{ time := 9, throttling := false, tripped := false, off := false, power := 777, temp := 0, volt := 0, amps := 0 }])], coolSamples := [{ time := 8, flowA := 70, flowB := 69 }] }
                    mons := [(3, { counts := [(2, 5)] })], wharves := [(0, { xof := 4, xnv := 1 })], streams := [(1, { accepted := 6 })] }
theorem test_telemetry : asked .telemetryComputeGroup measured 0 (command 0x0508 0 [(16, 1, 0), (17, 1, 0), (20, 1, 7)]) (fun u => ((u.fn 0).resp.map (fun r => (r.len, fieldLE r.data.toNat 10 2))) == some (32, 777)) ∧
    asked .telemetryCoolant measured 0 (command 0x0508 0 [(16, 1, 1)]) (fun u => ((u.fn 0).resp.map (fun r => fieldLE r.data.toNat 12 2)) == some 69) ∧
    asked .telemetryIdleTotals measured 1 (command 0x0508 0 [(16, 1, 3)]) (fun u => ((u.fn 1).resp.map Resp.len) == some 56) ∧
    asked .telemetryStream measured 1 (command 0x0508 0 [(16, 1, 4), (24, 1, 1)]) (fun u => ((u.fn 1).resp.map (fun r => fieldLE r.data.toNat 0 4)) == some 6) ∧
    asked .telemetryStream measured 1 (command 0x0508 0 [(16, 1, 4), (22, 1, 1)]) (fun u => answered u 1 stDenied) := by decide +kernel
theorem test_clearing_reads : measured.gransOf 0 = [0] ∧
    asked .telemetryMonitor measured 1 (command 0x0508 0 [(16, 1, 2), (17, 1, 3), (21, 1, 1)]) (fun u => ((u.fn 1).resp.map (fun r => fieldLE r.data.toNat 8 4)) == some 5 && u.mons == []) ∧
    asked .telemetryMonitor measured 1 (command 0x0508 0 [(16, 1, 2), (17, 1, 16)]) (fun u => answered u 1 stDenied) ∧
    asked .telemetryExpansion measured 1 (command 0x0508 0 [(16, 1, 5), (21, 1, 1)]) (fun u => ((u.fn 1).resp.map (fun r => fieldLE r.data.toNat 0 4)) == some 4 && (u.wharf 0).xof == 0) ∧
    owned.groupReaders 0 = [0] ∧ asked .telemetryComputeGroup measured 2 (command 0x0508 0 [(16, 1, 0)]) (fun _ => true) = false := by decide +kernel

/-- An open update of 4,096 bytes into bank B. -/
def updating (w : List Nat) : State := { owned with boot := { owned.boot with update := some { port := 0, bank := 1, length := 4096, written := w, touched := 0 } } }
theorem test_firmware : asked .fwBegin owned 0 (command 0x0601 0 [(16, 8, 4096)]) (fun u => answered u 0 stOK && (u.boot.update.map FwUpdate.bank) == some 1) ∧
    asked .fwBegin (updating []) 0 (command 0x0601 0 [(16, 8, 4096)]) (fun u => answered u 0 stBusy) ∧
    (let s := withList (updating []) (bytesOf [(0, 1, 9)] 4)
     let c := command 0x0602 2 [(8, 8, 0x1000), (16, 8, 0)]
     s.blockFault 0 (command 0x0602 2 [(8, 8, 0x1000), (16, 8, 8)]) = some (Resp.denied 3 16) ∧
     { s with boot := { s.boot with update := some { port := 0, bank := 1, length := 4, written := [], touched := 0 } } }.blockFault 0 c = none ∧
     asked (fun f => .fwBlock f none) { s with boot := { s.boot with update := some { port := 0, bank := 1, length := 4, written := [], touched := 0 } } } 0 c
       (fun u => settles u 0 stOK && (u.bank 1).image.read 0 == 9#8 && (u.boot.update.map FwUpdate.written) == some [0])) ∧
    asked (fun f => .fwCommit f []) (updating []) 0 (command 0x0603 2 []) (fun u => settles u 0 stImage && u.boot.update == none) ∧
    asked (fun f => .fwCommit f []) owned 0 (command 0x0603 2 []) (fun u => settles u 0 stDenied) := by decide +kernel
theorem test_firmware_status : asked .fwStatus owned 0 (command 0x0604 0 []) (fun u => ((u.fn 0).resp.map Resp.len) == some 9) ∧
    after .fwUpdateIdleTimeout { updating [] with now := 600000000000 } (fun u => u.boot.update == none) := by decide +kernel
/-- 29 February 2024 is a date; 29 February 2100 is none. -/
theorem test_time : asked .timeSet owned 0 (command 0x0701 0 [(16, 2, 2024), (18, 1, 2), (19, 1, 29), (20, 1, 23), (21, 1, 59), (22, 1, 59)]) (fun u => u.nv.rtc.valid && dateOf u.nv.rtc.count == ⟨2024, 2, 29, 23, 59, 59⟩) ∧
    asked .timeSet owned 0 (command 0x0701 0 [(16, 2, 2100), (18, 1, 2), (19, 1, 29)]) (fun u => answered u 0 stBadDate && u.nv.rtc == owned.nv.rtc) ∧
    asked .timeGet owned 0 (command 0x0702 0 []) (fun u => answered u 0 stTimeInvalid) ∧
    asked .timeGet { owned with nv := { owned.nv with rtc := { count := 86400, valid := true } } } 1 (command 0x0702 0 []) (fun u => ((u.fn 1).resp.map (fun r => fieldLE r.data.toNat 3 1)) == some 2) := by decide +kernel
theorem test_calibration : asked .calWrite owned 0 (command 0x0704 0 [(18, 2, 0x300), (24, 4, 15)]) (fun u => answered u 0 stOK && Tbl.get 0 u.boot.calUsed 0x300 == 15) ∧
    asked .calWrite owned 0 (command 0x0704 0 [(18, 2, 0x300), (24, 4, 16)]) (fun u => answered u 0 stDenied && u.nv.userCal == []) ∧
    asked .calWrite (domain0 { state := .running }) 0 (command 0x0704 0 [(18, 2, 0x300), (24, 4, 0xFFFFFFFB)]) (fun u => u.nv.calStored == [0x300] && u.boot.calUsed == [] && Tbl.get 0 u.nv.userCal 0x300 == -5) ∧
    asked .calRead { owned with nv := { owned.nv with userCal := [(0x300, 3)] } } 0 (command 0x0703 0 [(16, 1, 1), (18, 2, 0x300)]) (fun u => ((u.fn 0).resp.map (fun r => (fieldLE r.data.toNat 0 4, fieldLE r.data.toNat 8 4))) == some (3, 15)) ∧
    asked .calRead owned 0 (command 0x0703 0 [(16, 1, 2), (18, 2, 0x300)]) (fun u => answered u 0 stDenied) := by decide +kernel
theorem test_calibration_restored : asked .calRestoreFactory { owned with nv := { owned.nv with userCal := [(0x300, 3)] } } 0 (command 0x0705 2 []) (fun u => settles u 0 stOK && u.nv.userCal == []) ∧
    asked .calRestoreFactory (domain0 { state := .running }) 0 (command 0x0705 2 []) (fun u => waits u 0 && u.nv.calRestore) ∧
    after .calApply { owned with nv := { owned.nv with userCal := [(0x300, 3)], calStored := [0x300] } } (fun u => u.boot.calUsed == [(0x300, 3)] && u.nv.calStored == []) ∧
    after .calApply { owned with nv := { owned.nv with userCal := [(0x300, 3)], calRestore := true } } (fun u => u.nv.userCal == [] && !u.nv.calRestore) := by decide +kernel

theorem test_entropy_commands : asked .entropyReset owned 0 (command 0x0504 2 []) (fun u => waits u 0 && u.entropy.st == .restarting) ∧
    (let s := withList owned (List.replicate 128 0#8)
     asked (fun f => .entropySample f 7 false) s 0 (command 0x0706 2 [(8, 8, 0x1000), (16, 4, 1024)]) (fun u => settles u 0 stOK && u.hostMem.read 0x2000 == 7#8) ∧
     asked (fun f => .entropySample f 7 false) s 0 (command 0x0706 2 [(8, 8, 0x1000), (16, 4, 1000)]) (fun u => settles u 0 stDenied) ∧
     asked (fun f => .entropySample f 7 false) s 0 (command 0x0706 2 [(8, 8, 0x1000), (16, 4, 2048)]) (fun u => settles u 0 stNoResource) ∧
     asked (fun f => .entropySample f 7 true) s 0 (command 0x0706 2 [(8, 8, 0x1000), (16, 4, 1024)]) (fun u => settles u 0 stIntegrity)) := by decide +kernel
/-- 1,024 zero bits fail both tests of a window. -/
theorem test_entropy_window : live.sourceRuns = true ∧ live.entropy.windowAt + 16000 ≤ live.now ∧ (live.entropy.testWindow 0).2 = (true, true) := by decide +kernel
/-- Bits that alternate pass. -/
theorem test_entropy_passes : (live.entropy.testWindow ((2 ^ 1024 - 1) / 3)).2 = (false, false) ∧ live.reseedDue = true := by decide +kernel

/-- Tile (1, 2) of granule 0. -/
def tile12 (k : Nat) (l : List (Nat × Nat × Nat)) : Nat := command k 0 ([(16, 1, 1), (17, 1, 2)] ++ l)
def debugged : State := { owned with tiles := [(257, { withMem (core 0 (5, 6) (0, 0)) with sync := [(7, { pool := 0, count := 4 })] })] }
theorem test_tile_read : (ask debugged 1 0).debugTile 1 1 2 = some 257 ∧ (ask debugged 1 0).debugTile 1 4 0 = none ∧ spanFault 1 64 8 = none ∧ (spanFault 1 (2 ^ 22 - 8) 16).isSome = true ∧
    asked (fun f => .tileRead f [] false) debugged 1 (tile12 0x0801 [(18, 1, 1), (20, 4, 64), (24, 2, 8)]) (fun u => ((u.fn 1).resp.map (fun r => (r.len, fieldLE r.data.toNat 16 8))) == some (24, 0x8887868584838281)) ∧
    asked (fun f => .tileRead f [] true) debugged 1 (tile12 0x0801 [(18, 1, 1), (20, 4, 64), (24, 2, 8)]) (fun u => answered u 1 stBusy) ∧
    asked (fun f => .tileRead f [(8, true)] false) debugged 1 (tile12 0x0801 [(18, 1, 1), (20, 4, 64), (24, 2, 8)]) (fun u => answered u 1 stIntegrity) := by decide +kernel
theorem test_tile_write : asked (fun f => .tileWrite f none) debugged 1 (tile12 0x0802 [(18, 1, 1), (20, 4, 64), (24, 2, 16), (32, 16, 2 ^ 64 * 9 + 1)]) (fun u => (u.tile 257).mem.readLE 64 16 == 2 ^ 64 * 9 + 1 && answered u 1 stOK) ∧
    asked (fun f => .tileWrite f (some 1)) debugged 1 (tile12 0x0802 [(18, 1, 1), (20, 4, 64), (24, 2, 16), (32, 16, 2 ^ 64 * 9 + 1)]) (fun u => (u.tile 257).mem.readLE 64 16 == 1 && answered u 1 stBusy) ∧
    asked (fun f => .tileWrite f none) debugged 1 (tile12 0x0802 [(18, 1, 5), (20, 4, 0), (24, 2, 8)]) (fun u => answered u 1 stDenied) ∧
    asked (fun f => .tileWrite f none) debugged 1 (tile12 0x0802 [(18, 1, 2), (20, 4, 0), (24, 2, 8), (32, 1, 31)]) (fun u => answered u 1 stOK) := by decide +kernel
theorem test_sync_set : asked .syncSet debugged 1 (tile12 0x0803 [(18, 1, 7), (20, 2, 99)]) (fun u => (u.tile 257).syncCount 7 == 99 && ((u.fn 1).resp.map (fun r => fieldLE r.data.toNat 0 2)) == some 4) ∧
    asked .syncSet debugged 1 (tile12 0x0803 [(18, 1, 8), (20, 2, 99)]) (fun u => answered u 1 stDenied) := by decide +kernel
/-- A Beagle operation on the same tile. -/
def beagle (op : Nat) (l : List (Nat × Nat × Nat)) : Nat := command 0x0804 0 ([(16, 1, op), (17, 1, 1), (18, 1, 2)] ++ l)
theorem test_breakpoints : asked .beagleSetBreakpoint debugged 1 (beagle 0 [(19, 1, 3), (20, 2, 4095)]) (fun u => (u.tile 257).brk == [(3, 4095)]) ∧
    asked .beagleSetBreakpoint debugged 1 (beagle 0 [(19, 1, 3), (20, 2, 4096)]) (fun u => (u.tile 257).brk == [] && answered u 1 stDenied) ∧
    asked .beagleClearBreakpoint debugged 1 (beagle 1 [(19, 1, 3)]) (fun u => answered u 1 stOK) ∧ debugged.power.pdOn.getLsbD (tileTarget 257).pd = true := by decide +kernel
theorem test_stop_resume_query : asked .beagleStop debugged 1 (beagle 2 []) (fun u => (u.tile 257).core.stop == some .stop && (u.tile 257).core.act == .run) ∧
    asked .beagleResume { debugged with tiles := [(257, { core := { stop := some .brk } })] } 1 (beagle 3 []) (fun u => (u.tile 257).core.stop == none && (u.tile 257).core.stepOver) ∧
    asked .beagleQuery debugged 1 (beagle 4 []) (fun u => ((u.fn 1).resp.map (fun r => (r.len, fieldLE r.data.toNat 0 2))) == some (16, 0)) := by decide +kernel
theorem test_scheduled : let s := domain0 { state := .running, started := true, index := 4 }
    let at_ := fun op l x => command 0x0804 0 [(16, 1, op), (24, 6, l), (30, 2, x)]
    beagleCtx 1 (at_ 5 9 0) = some 0 ∧ beagleCtx 1 (at_ 5 9 4) = none ∧
    asked .beagleScheduleHalt s 1 (at_ 5 9 0) (fun u => (u.ctx 0).haltAt == [9]) ∧
    asked .beagleScheduleHalt s 1 (at_ 5 3 0) (fun u => (u.ctx 0).haltAt == [5] && ((u.fn 1).resp.map Resp.rflags) == some 2) ∧
    asked .beagleScheduleTrace s 1 (at_ 6 9 0) (fun u => (u.ctx 0).traceAt == some 9) ∧
    asked .beagleScheduleTrace (domain0 { state := .aborted }) 1 (at_ 6 9 0) (fun u => answered u 1 stDenied) := by decide +kernel

/-! ### SPDM -/

/-- Function 1 with its responder as given. -/
def responder (p : Spdm) : State := { owned with vfs := (4, 4), fns := [(1, { spdm := p })] }
def outOf (u : State) : List SpdmAnswer := (u.fn 1).spdm.out
theorem test_spdm_negotiation : (responder {}).fnExists 1 = true ∧ after (.getVersion 1) (responder {}) (fun u => outOf u == [.version 0x12] && (u.fn 1).spdm.stage == 1) ∧
    after (.getCapabilities 1) (responder { stage := 1 }) (fun u => outOf u == [.capabilities spdmCaps]) ∧ after (.negotiateAlgorithms 1) (responder { stage := 2 }) (fun u => (u.fn 1).spdm.stage == 3) ∧
    after (.negotiateAlgorithms 1) (responder { stage := 1 }) (fun u => outOf u == [.error .unexpectedRequest] && (u.fn 1).spdm.stage == 1) ∧
    after (.getDigests 1) (responder { stage := 3 }) (fun u => (outOf u).length == 1) ∧ after (.getCertificate 1 0) (responder { stage := 3 }) (fun u => (outOf u).length == 1) ∧
    after (.challenge 1 1) (responder { stage := 3 }) (fun u => outOf u == [.error .invalidRequest]) := by decide +kernel
theorem test_spdm_random : after (.challenge 1 0) { responder { stage := 3 } with entropy := { st := .failed } } (fun u => outOf u == [.error .unspecified]) ∧
    (responder { stage := 3 }).measurement 1 5 ≠ none ∧ (responder { stage := 3 }).measurement 1 7 = none ∧
    after (.getMeasurements 1 7) (responder { stage := 3 }) (fun u => outOf u == [.error .invalidRequest]) ∧
    after (.keyExchange 1) { responder { stage := 3 } with entropy := { st := .restarting } } (fun u => outOf u == [.error .busy]) ∧
    after (.keyExchange 1) (responder { stage := 3 }) (fun u => outOf u == [] && u.entropy.waiting == [(.spdm 1 .keyExchange, true)]) ∧
    (Meas.raw 3 [5]).block = [3, 1, 11, 0, 0x83, 8, 0, 5, 0, 0, 0, 0, 0, 0, 0] ∧
    after (.keyExchange 1) (responder { stage := 3, sessions := [(0, ⟨0, true, 0⟩), (1, ⟨0, true, 0⟩), (2, ⟨0, true, 0⟩), (3, ⟨0, true, 0⟩)] }) (fun u => outOf u == [.error .sessionLimit]) := by decide +kernel
theorem test_spdm_sessions : after (.finish 1 2) (responder { stage := 3, sessions := [(2, ⟨5, false, 0⟩)] }) (fun u => (u.fn 1).spdm.sessions == [(2, ⟨5, true, 0⟩)]) ∧
    after (.heartbeat 1 2) (responder { stage := 3, sessions := [(2, ⟨5, true, 0⟩)] }) (fun u => outOf u == [.heartbeat 2]) ∧
    after (.heartbeat 1 2) (responder { stage := 3, sessions := [(2, ⟨5, false, 0⟩)] }) (fun u => outOf u == [.error .unexpectedRequest]) ∧
    after (.keyUpdate 1 2) (responder { stage := 3, sessions := [(2, ⟨5, true, 0⟩)] }) (fun u => (u.fn 1).spdm.sessions == [(2, ⟨5, true, 1⟩)]) ∧
    after (.endSession 1 2) (responder { stage := 3, sessions := [(2, ⟨5, true, 0⟩)] }) (fun u => (u.fn 1).spdm.sessions == []) := by decide +kernel

/-! ### The whole block -/

theorem test_step_front : step { State.reset with pending := [.timeBaseTick, .startReady] } = exec .timeBaseTick { State.reset with pending := [.startReady] } := by rfl
theorem test_step_idles : step State.reset = .next State.reset := by rfl
theorem test_memories : live.memoriesWf = true ∧ State.reset.memoriesWf = true ∧ { live with hold := [(5, 1#8), (3, 1#8)] }.memoriesWf = false ∧ { live with hold := [(5, 0#8)] }.memoriesWf = false := by decide
/-- Two partials of 2^95 - 1 each, and two whose sum saturates. -/
theorem test_partials_combine : (combineWin { value := 2 ^ 95 - 1 } { value := 2 ^ 95 - 1 }).value = 2 ^ 96 - 2 ∧ (combineWin { value := 2 ^ 119 - 1 } { value := 1 }).high = true ∧
    (combineWin { value := 2 ^ 119 - 1 } { value := 1 }).value = 2 ^ 119 - 1 := by decide

end

end Sys2Proof.Tests
end

section
/-! SUPPORT. How window partials combine (R123): the combination is the exact sum wherever that sum fits 120 bits, which makes it
associative there, and the sum of up to 2^24 partials of the 96-bit window always fits. -/

namespace Sys2Proof.Machine

/-! ### One combination -/

@[simp] theorem sat120_value (w : Win) (t : Int) :
    (sat120 w t).value = if 2 ^ 119 - 1 < t then 2 ^ 119 - 1 else if t < -(2 ^ 119) then -(2 ^ 119) else t := by
  simp only [sat120, apply_ite Win.value]

@[simp] theorem sat120_low (w : Win) (t : Int) : (sat120 w t).low = w.low := by
  simp only [sat120, apply_ite Win.low, ite_self]

@[simp] theorem sat120_nonfinite (w : Win) (t : Int) : (sat120 w t).nonfinite = w.nonfinite := by
  simp only [sat120, apply_ite Win.nonfinite, ite_self]

@[simp] theorem sat120_high (w : Win) (t : Int) :
    (sat120 w t).high = (decide (2 ^ 119 - 1 < t) || decide (t < -(2 ^ 119)) || w.high) := by
  unfold sat120
  by_cases hhi : 2 ^ 119 - 1 < t
  · rw [if_pos hhi, decide_eq_true hhi, Bool.true_or, Bool.true_or]
  · by_cases hlo : t < -(2 ^ 119)
    · rw [if_neg hhi, if_pos hlo, decide_eq_true hlo, Bool.or_true, Bool.true_or]
    · rw [if_neg hhi, if_neg hlo, decide_eq_false hhi, decide_eq_false hlo, Bool.false_or, Bool.false_or]

theorem combineWin_value (a b : Win) :
    (combineWin a b).value = if 2 ^ 119 - 1 < a.value + b.value then 2 ^ 119 - 1
      else if a.value + b.value < -(2 ^ 119) then -(2 ^ 119) else a.value + b.value :=
  sat120_value ..

theorem combineWin_low (a b : Win) : (combineWin a b).low = (a.low || b.low) := sat120_low ..

theorem combineWin_nonfinite (a b : Win) : (combineWin a b).nonfinite = (a.nonfinite || b.nonfinite) := sat120_nonfinite ..

theorem combineWin_high (a b : Win) :
    (combineWin a b).high =
      (decide (2 ^ 119 - 1 < a.value + b.value) || decide (a.value + b.value < -(2 ^ 119)) || a.high || b.high) :=
  (sat120_high ..).trans (Bool.or_assoc ..).symm

theorem combineWin_comm (a b : Win) : combineWin a b = combineWin b a := by
  simp only [combineWin, Int.add_comm, Bool.or_comm]

/-! ### The exact sum, and where the combination is it -/

/-- The combination that R123 would be without saturation. -/
def Win.exactSum (a b : Win) : Win :=
  { value := a.value + b.value, low := a.low || b.low, high := a.high || b.high, nonfinite := a.nonfinite || b.nonfinite }

theorem Win.exactSum_assoc (a b c : Win) : (a.exactSum b).exactSum c = a.exactSum (b.exactSum c) := by
  simp only [exactSum, Int.add_assoc, Bool.or_assoc]

theorem combineWin_eq_exactSum {a b : Win} (hlo : -(2 ^ 119) ≤ a.value + b.value) (hhi : a.value + b.value ≤ 2 ^ 119 - 1) :
    combineWin a b = a.exactSum b := by
  rw [combineWin, sat120, if_neg (by omega), if_neg (by omega), Win.exactSum]

/-- HIGH clear in the result says that nothing saturated, here or in either operand. -/
theorem combineWin_high_eq_false {a b : Win} (h : (combineWin a b).high = false) :
    combineWin a b = a.exactSum b ∧ a.high = false ∧ b.high = false := by
  simp only [combineWin_high, Bool.or_eq_false_iff, decide_eq_false_iff_not] at h
  obtain ⟨⟨⟨hhi, hlo⟩, ha⟩, hb⟩ := h
  exact ⟨combineWin_eq_exactSum (by omega) (by omega), ha, hb⟩

theorem combineWin_assoc {a b c : Win} (hl : (combineWin (combineWin a b) c).high = false)
    (hr : (combineWin a (combineWin b c)).high = false) :
    combineWin (combineWin a b) c = combineWin a (combineWin b c) := by
  obtain ⟨outerL, hab, -⟩ := combineWin_high_eq_false hl
  obtain ⟨outerR, -, hbc⟩ := combineWin_high_eq_false hr
  obtain ⟨innerL, -⟩ := combineWin_high_eq_false hab
  obtain ⟨innerR, -⟩ := combineWin_high_eq_false hbc
  calc combineWin (combineWin a b) c = (a.exactSum b).exactSum c := by rw [outerL, innerL]
    _ = a.exactSum (b.exactSum c) := Win.exactSum_assoc a b c
    _ = combineWin a (combineWin b c) := by rw [outerR, innerR]

/-! ### Sums of up to 2^24 partials -/

/-- The value is one that a sum of `n` partials of the 96-bit window can have. -/
def Win.SumOf (n : Nat) (w : Win) : Prop := -(n * 2 ^ 95 : Int) ≤ w.value ∧ w.value ≤ n * (2 ^ 95 - 1)

theorem Win.sumOf_one {w : Win} : w.SumOf 1 ↔ -(2 ^ 95) ≤ w.value ∧ w.value ≤ 2 ^ 95 - 1 := by
  unfold SumOf; omega

theorem Win.empty_sumOf (n : Nat) : ({} : Win).SumOf n := by constructor <;> dsimp only <;> omega

theorem combineWin_sumOf {m n : Nat} {a b : Win} (hmn : m + n ≤ 2 ^ 24) (ha : a.SumOf m) (hb : b.SumOf n) :
    combineWin a b = a.exactSum b ∧ (combineWin a b).SumOf (m + n) := by
  obtain ⟨alo, ahi⟩ := ha
  obtain ⟨blo, bhi⟩ := hb
  have sum : combineWin a b = a.exactSum b := combineWin_eq_exactSum (by omega) (by omega)
  refine ⟨sum, ?_⟩
  rw [sum, Win.SumOf, Win.exactSum]
  constructor <;> dsimp only <;> omega

/-- Started from a sum of `m` partials, a fold over partials of the window keeps the exact value and sets HIGH by none of its steps. -/
theorem foldl_combineWin {l : List Win} : ∀ {m : Nat} {a : Win}, a.SumOf m → m + l.length ≤ 2 ^ 24 → (∀ w ∈ l, w.SumOf 1) →
    (l.foldl combineWin a).value = a.value + (l.map Win.value).sum ∧ (l.foldl combineWin a).high = (a.high || l.any Win.high) := by
  induction l with
  | nil =>
    intro m a _ _ _
    exact ⟨(Int.add_zero _).symm, (Bool.or_false _).symm⟩
  | cons w l ih =>
    intro m a ha hlen hl
    obtain ⟨hw, hrest⟩ := List.forall_mem_cons.mp hl
    rw [List.length_cons] at hlen
    obtain ⟨sum, haw⟩ := combineWin_sumOf (by omega) ha hw
    obtain ⟨value, high⟩ := ih haw (by omega) hrest
    rw [List.foldl_cons, value, high, sum, List.map_cons, List.sum_cons, List.any_cons]
    exact ⟨Int.add_assoc .., Bool.or_assoc ..⟩

/-! ### What a drain exports -/

theorem clampWin_sumOf_one (w : Win) : (clampWin w).SumOf 1 := by
  rw [Win.sumOf_one]
  unfold clampWin
  by_cases hhi : 2 ^ 95 - 1 < w.value
  · rw [if_pos hhi]; dsimp only; omega
  · by_cases hlo : w.value < -(2 ^ 95)
    · rw [if_neg hhi, if_pos hlo]; dsimp only; omega
    · rw [if_neg hhi, if_neg hlo]; omega

theorem drainWin_true (w : Win) : drainWin true w = clampWin w := by
  rw [drainWin, Bool.not_true, Bool.and_false, if_neg Bool.false_ne_true]

theorem drainVals_sumOf_one {row : AccRow} {p : Fv × Win} (hp : p ∈ drainVals true row) : p.2.SumOf 1 := by
  cases row with
  | empty => cases hp
  | exact e ws =>
    obtain ⟨w, -, rfl⟩ := List.mem_map.mp hp
    exact drainWin_true w ▸ clampWin_sumOf_one w
  | f32 cs =>
    obtain ⟨c, -, rfl⟩ := List.mem_map.mp hp
    exact Win.empty_sumOf 1

theorem drainRow_of_partial {o : Order} (h : drPartial o) (d : Td) (row : AccRow) :
    (drainRow o d row).1 = (drainVals true row).map (fun p => winBits p.2) := by
  simp only [drainRow, h, if_true]

/-- Settles O58: each clause is one of the lemmas above; the fold starts from the empty partial, a sum of no partials. -/
theorem partialsCombine : Obligations.PartialsCombine := by
  intro a b c
  refine ⟨combineWin_value a b, combineWin_low a b, combineWin_nonfinite a b, combineWin_high a b, combineWin_comm a b,
    combineWin_assoc, ?pair, ?fold, ?drain⟩
  case pair =>
    intro m n hmn alo ahi blo bhi
    obtain ⟨sum, bounds⟩ := combineWin_sumOf hmn ⟨alo, ahi⟩ ⟨blo, bhi⟩
    exact ⟨congrArg Win.value sum, congrArg Win.high sum, bounds⟩
  case fold =>
    intro l hlen hl
    obtain ⟨value, high⟩ := foldl_combineWin (Win.empty_sumOf 0) (by omega) (fun w hw => Win.sumOf_one.mpr (hl w hw))
    exact ⟨value.trans (Int.zero_add _), high.trans (Bool.false_or _)⟩
  case drain =>
    intro o d row ho
    exact ⟨drainRow_of_partial ho d row, fun p hp => Win.sumOf_one.mp (drainVals_sumOf_one hp)⟩

end Sys2Proof.Machine
end

section
/-! SUPPORT. Integer division (R162): the ALU row of a ready core writes the function's result at its cost, and the results of the
four division functions where the divisor is zero, where it is not, and where the signed quotient does not fit a word. -/

namespace Sys2Proof.Machine

/-! ### The division functions of the ALU -/

section
variable (a : Word)

theorem aluOp_div_zero : aluOp 0x014 a 0#32 = 0xFFFFFFFF#32 := rfl
theorem aluOp_divu_zero : aluOp 0x015 a 0#32 = 0xFFFFFFFF#32 := rfl
theorem aluOp_rem_zero : aluOp 0x016 a 0#32 = a := rfl
theorem aluOp_remu_zero : aluOp 0x017 a 0#32 = a := rfl

variable {b : Word} (hb : b ≠ 0#32)
include hb

theorem aluOp_div_of_ne_zero : aluOp 0x014 a b = BitVec.ofInt 32 (Int.tdiv a.toInt b.toInt) := if_neg hb
theorem aluOp_divu_of_ne_zero : aluOp 0x015 a b = BitVec.ofNat 32 (a.toNat / b.toNat) := if_neg hb
theorem aluOp_rem_of_ne_zero : aluOp 0x016 a b = BitVec.ofInt 32 (Int.tmod a.toInt b.toInt) := if_neg hb
theorem aluOp_remu_of_ne_zero : aluOp 0x017 a b = BitVec.ofNat 32 (a.toNat % b.toNat) := if_neg hb

end

/-- The quotient 2^31 of the smallest word by -1 wraps round to the dividend. -/
theorem aluOp_div_overflow : aluOp 0x014 0x80000000#32 0xFFFFFFFF#32 = 0x80000000#32 := by decide
theorem aluOp_rem_overflow : aluOp 0x016 0x80000000#32 0xFFFFFFFF#32 = 0#32 := by decide

theorem aluCost_division {fn : Nat} (h : 0x014 ≤ fn) : aluCost fn = 34 := if_pos h

/-! ### The ALU row -/

theorem exec_alu (t : Nat) (s : State) : exec (.alu t) s = execAlu t s := rfl

section
variable {s : State} {t : Nat} (h : Ready s t 0x02 = true)
include h

/-- A ready core completes every function of the ALU table: the row has no other end. -/
theorem exec_alu_ready : exec (.alu t) s = .next (ScalarNext s t
    ((s.tile t).setG (iRD (s.tile t).instr)
      (aluOp (iFN (s.tile t).instr) ((s.tile t).gr (iRA (s.tile t).instr)) ((s.tile t).gr (iRB (s.tile t).instr))))
    ((s.tile t).core.pc.toNat + 1) (aluCost (iFN (s.tile t).instr))) := by
  rw [exec_alu, execAlu, scalar_ready h, State.scalarResult_done]

/-- A division function writes the value that its ALU function has, in 34 cycles. -/
theorem exec_alu_division {fn : Nat} (hfn : 0x014 ≤ fn) {v : Word}
    (hv : aluOp fn ((s.tile t).gr (iRA (s.tile t).instr)) ((s.tile t).gr (iRB (s.tile t).instr)) = v)
    (hw : iFN (s.tile t).instr = fn) :
    exec (.alu t) s =
      .next (ScalarNext s t ((s.tile t).setG (iRD (s.tile t).instr) v) ((s.tile t).core.pc.toNat + 1) 34) := by
  rw [exec_alu_ready h, hw, hv, aluCost_division hfn]

end

/-- Settles O57: every clause is `exec_alu_division` at one function, with that function's value for the operands at hand. -/
theorem integerDivision : Obligations.IntegerDivision := by
  intro s t h tl w a b writes
  have division {fn : Nat} (hfn : 0x014 ≤ fn) {v : Word} (hv : aluOp fn a b = v) : iFN w = fn → exec (.alu t) s = writes v :=
    exec_alu_division h hfn hv
  refine ⟨?neverFaults, ?zeroDivisor, ?overflow, ?nonzeroDivisor⟩
  case neverFaults =>
    intro hfn
    exact ⟨_, division (by omega) rfl rfl⟩
  case zeroDivisor =>
    intro hb
    exact ⟨division (by decide) (hb ▸ aluOp_div_zero a), division (by decide) (hb ▸ aluOp_divu_zero a),
      division (by decide) (hb ▸ aluOp_rem_zero a), division (by decide) (hb ▸ aluOp_remu_zero a)⟩
  case overflow =>
    intro ha hb
    exact ⟨division (by decide) (by rw [ha, hb, aluOp_div_overflow]), division (by decide) (by rw [ha, hb, aluOp_rem_overflow])⟩
  case nonzeroDivisor =>
    intro hb
    exact ⟨division (by decide) (aluOp_div_of_ne_zero a hb), division (by decide) (aluOp_divu_of_ne_zero a hb),
      division (by decide) (aluOp_rem_of_ne_zero a hb), division (by decide) (aluOp_remu_of_ne_zero a hb)⟩

end Sys2Proof.Machine
end

section
/-! SUPPORT. Route misses (R190): a flit that has no way through the router it reaches is counted and recorded there, and no buffer
takes it; a grant on its way there changes no other router but for the credits that come back to it. -/

namespace Sys2Proof.Machine

/-! ### Reads of tile memory leave the exchange engine -/

@[simp] theorem Tile.upset_xe (t : Tile) (u : Nat × Bool) : (t.upset u).xe = t.xe := by
  unfold Tile.upset
  split <;> rfl

@[simp] theorem Tile.upsets_xe (t : Tile) (ups : List (Nat × Bool)) : (t.upsets ups).xe = t.xe :=
  foldl_keeps (p := fun u : Tile => u.xe = t.xe) (fun u a h => (u.upset_xe a).trans h) ups t rfl

@[simp] theorem Tile.checkWord_xe (t : Tile) (w : Nat) : (t.checkWord w).1.xe = t.xe := by
  unfold Tile.checkWord
  split <;> rfl

@[simp] theorem Tile.checkWords_xe (t : Tile) (w n : Nat) : (t.checkWords w n).1.xe = t.xe := by
  induction n generalizing t w with
  | zero => rfl
  | succ n ih =>
    have later : ((t.checkWord w).1.checkWords (w + 1) n).1.xe = t.xe := (ih ..).trans (t.checkWord_xe w)
    unfold Tile.checkWords
    dsimp only
    split <;> exact later

/-- One block of a wide read. The check is generalised because Lean's own equations of `readBlocks` unfold all of its 64 words. -/
theorem Tile.readBlocks_succ {t u : Tile} {b : Nat} {r : Option (Nat × Bool)} (h : t.checkWords (64 * b) 64 = (u, r)) (n : Nat) :
    t.readBlocks b (n + 1) = if r.isSome then (u, r) else u.readBlocks (b + 1) n := by
  delta Tile.readBlocks Tile.readBlocks._f
  generalize Tile.checkWords = check at h ⊢
  dsimp only
  rw [h]
  cases r <;> rfl

@[simp] theorem Tile.readBlocks_xe (t : Tile) (b n : Nat) : (t.readBlocks b n).1.xe = t.xe := by
  induction n generalizing t b with
  | zero => exact congrArg (·.1.xe) (rfl : t.readBlocks b 0 = (t, none))
  | succ n ih =>
    have block := t.checkWords_xe (64 * b) 64
    rcases hu : t.checkWords (64 * b) 64 with ⟨u, r⟩
    rw [hu] at block
    rw [Tile.readBlocks_succ hu]
    split
    · exact block
    · exact (ih ..).trans block

@[simp] theorem Tile.readSpan_xe (t : Tile) (addr len : Nat) : (t.readSpan addr len).1.xe = t.xe := by
  unfold Tile.readSpan
  split
  · rfl
  · exact t.readBlocks_xe ..

/-! ### Credits on their way back (R193) -/

/-- Router `q` is router `r` but for the credits on their way back to its outputs. -/
def Router.SameButReturning (r q : Router) : Prop := ∃ x, q = { r with returning := x }

theorem Router.SameButReturning.refl (r : Router) : r.SameButReturning r := ⟨_, rfl⟩

theorem Router.SameButReturning.trans {r q p : Router} (h : r.SameButReturning q) (k : q.SameButReturning p) :
    r.SameButReturning p := by
  obtain ⟨_, rfl⟩ := h
  obtain ⟨x, rfl⟩ := k
  exact ⟨x, rfl⟩

theorem Router.SameButReturning.open? {r q : Router} (h : r.SameButReturning q) (o : Nat) : q.open? o = r.open? o := by
  obtain ⟨_, rfl⟩ := h
  rfl

/-- Nothing but the routers differs, and each router but that of tile `t` differs at most in the credits that come back to it. -/
structure GrantOnly (t : Nat) (s u : State) : Prop where
  routersOnly : ∃ x, u = { s with routers := x }
  elsewhere : ∀ k, k ≠ t → (s.router k).SameButReturning (u.router k)

namespace GrantOnly
variable {t : Nat} {s u v : State}

theorem refl (t : Nat) (s : State) : GrantOnly t s s := ⟨⟨_, rfl⟩, fun _ _ => .refl _⟩

theorem trans (h : GrantOnly t s u) (k : GrantOnly t u v) : GrantOnly t s v where
  routersOnly := by
    obtain ⟨_, rfl⟩ := h.routersOnly
    obtain ⟨x, rfl⟩ := k.routersOnly
    exact ⟨x, rfl⟩
  elsewhere n hn := (h.elsewhere n hn).trans (k.elsewhere n hn)

theorem setRouter (t : Nat) (s : State) (r : Router) : GrantOnly t s (s.setRouter t r) where
  routersOnly := ⟨_, rfl⟩
  elsewhere k hk := by
    rw [State.setRouter_router, if_neg hk]
    exact .refl _

theorem neighbour (h : GrantOnly t s u) (k o : Nat) : u.neighbour k o = s.neighbour k o := by
  obtain ⟨_, rfl⟩ := h.routersOnly
  rfl

end GrantOnly

theorem State.freeCredit_router (s : State) (t port lane k : Nat) :
    (s.router k).SameButReturning ((s.freeCredit t port lane).router k) := by
  unfold State.freeCredit
  split
  · exact .refl _
  · split
    · exact .refl _
    · rw [State.setRouter_router]
      split
      · rename_i h
        exact h ▸ ⟨_, rfl⟩
      · exact .refl _

theorem State.freeCredit_routersOnly (s : State) (t port lane : Nat) : ∃ x, s.freeCredit t port lane = { s with routers := x } := by
  unfold State.freeCredit
  split
  · exact ⟨_, rfl⟩
  · split <;> exact ⟨_, rfl⟩

theorem State.popLane_grantOnly (s : State) (t port lane : Nat) : GrantOnly t s (s.popLane t port lane) :=
  .trans (.setRouter t s _) ⟨State.freeCredit_routersOnly .., fun _ _ => State.freeCredit_router ..⟩

theorem State.takeCand_grantOnly (s : State) (t : Nat) (c : Cand) : GrantOnly t s (s.takeCand t c) := by
  unfold State.takeCand
  dsimp only
  split
  · exact .setRouter ..
  · exact foldl_keeps (p := GrantOnly t s) (fun u _ h => h.trans (u.popLane_grantOnly ..)) _ _ (.setRouter ..)
  · split
    · exact .trans (.setRouter ..) (State.popLane_grantOnly ..)
    · exact .setRouter ..

/-! ### Drops (R204) -/

theorem State.dropEvent_events (s : State) (t ch cause : Nat) : EventsOnly s (s.dropEvent t ch cause) := by
  have reported (c : Prop) [Decidable c] (n b : Nat) : EventsOnly s (if c then s else s.postTenant n 0x21 1 0xFFFF b) := by
    split
    · exact .refl s
    · exact s.postTenant_events ..
  unfold State.dropEvent
  dsimp only
  split
  · exact .trans (reported ..) (State.postNum_events ..)
  · exact reported ..

theorem State.dropAt_router (s : State) (t ch port lane cause k : Nat) :
    (s.dropAt t ch port lane cause).router k = if k = t then (s.router t).drop ch port lane cause else s.router k :=
  ((State.dropEvent_events ..).router k).trans (State.setRouter_router ..)

theorem State.dropAt_tile (s : State) (t ch port lane cause k : Nat) : (s.dropAt t ch port lane cause).tile k = s.tile k :=
  (State.dropEvent_events ..).tile k

/-! ### Route misses (R190) -/

/-- The router has no way through for a flit of channel `ch` on `lane` of input `port`: no valid entry, or one of another input or
lane. -/
def Router.Misses (r : Router) (ch port lane : Nat) : Prop :=
  r.route ch = none ∨ ∃ e, r.route ch = some e ∧ (bit (rteIn e) port = false ∨ rteLane e ≠ lane)

/-- Router `q` is router `r` after the drop of such a flit: counted, flagged and recorded as a route miss, in no buffer, and no other
count changed. -/
def Router.DroppedAsMiss (r : Router) (ch port lane : Nat) (q : Router) : Prop :=
  q.miss = BitVec.ofNat 16 (min (r.miss.toNat + 1) 65535) ∧ q.status = r.status ||| 2#5 ∧
  q.lastDrop = BitVec.ofNat 64 (ch % 4096 + 4096 * (port % 8) + 32768 * (lane % 8) + 262144) ∧
  q.inq = r.inq ∧ q.localOut = r.localOut ∧ q.fence = r.fence ∧ q.mismatch = r.mismatch ∧ q.hdrUe = r.hdrUe

theorem Router.Misses.of_sameButReturning {r q : Router} {ch port lane : Nat} (m : r.Misses ch port lane)
    (h : r.SameButReturning q) : q.Misses ch port lane := by
  obtain ⟨_, rfl⟩ := h
  exact m

theorem Router.DroppedAsMiss.of_sameButReturning {r r' q q' : Router} {ch port lane : Nat} (d : r'.DroppedAsMiss ch port lane q)
    (before : r.SameButReturning r') (after : q.SameButReturning q') : r.DroppedAsMiss ch port lane q' := by
  obtain ⟨_, rfl⟩ := before
  obtain ⟨_, rfl⟩ := after
  exact d

theorem pack_routeMiss (ch port lane : Nat) : pack [(0, 12, ch), (12, 3, port), (15, 3, lane), (18, 2, dropMiss)] =
    ch % 4096 + 4096 * (port % 8) + 32768 * (lane % 8) + 262144 := by
  simp only [pack, dropMiss, Nat.shiftLeft_eq]
  omega

theorem Router.drop_miss (r : Router) (ch port lane : Nat) : r.DroppedAsMiss ch port lane (r.drop ch port lane dropMiss) :=
  ⟨rfl, rfl, congrArg (BitVec.ofNat 64) (pack_routeMiss ch port lane), rfl, rfl, rfl, rfl, rfl⟩

theorem Router.arrivalDrop_of_misses {r : Router} {port : Nat} {f : Flit} (ho : r.open? port = true)
    (m : r.Misses f.ch port f.lane) : r.arrivalDrop port f = some dropMiss := by
  unfold Router.arrivalDrop
  rw [ho]
  obtain hnone | ⟨e, he, hin | hlane⟩ := m
  · rw [hnone]; rfl
  · rw [he]; simp [hin]
  · rw [he]; simp [hlane]

/-- Without a header error, a flit that misses its route is dropped and its credit goes back. -/
theorem State.arriveFlit_of_misses {s : State} {t port : Nat} {f : Flit} (ho : (s.router t).open? port = true)
    (m : (s.router t).Misses f.ch port f.lane) :
    s.arriveFlit t port 0 f = (s.dropAt t f.ch port f.lane dropMiss).freeCredit t port f.lane := by
  have cause := Router.arrivalDrop_of_misses ho m
  simp [State.arriveFlit, State.headerError, State.enterInput, cause]

theorem State.arriveFlit_droppedAsMiss {s : State} {t port : Nat} {f : Flit} (ho : (s.router t).open? port = true)
    (m : (s.router t).Misses f.ch port f.lane) :
    (s.router t).DroppedAsMiss f.ch port f.lane ((s.arriveFlit t port 0 f).router t) := by
  have dropped : (s.dropAt t f.ch port f.lane dropMiss).router t = (s.router t).drop f.ch port f.lane dropMiss :=
    (State.dropAt_router ..).trans (if_pos rfl)
  rw [State.arriveFlit_of_misses ho m]
  exact ((s.router t).drop_miss ..).of_sameButReturning (.refl _) (dropped ▸ State.freeCredit_router ..)

theorem State.arriveFlit_tile_of_misses {s : State} {t port : Nat} {f : Flit} (ho : (s.router t).open? port = true)
    (m : (s.router t).Misses f.ch port f.lane) (k : Nat) : (s.arriveFlit t port 0 f).tile k = s.tile k := by
  rw [State.arriveFlit_of_misses ho m]
  obtain ⟨_, h⟩ := (s.dropAt t f.ch port f.lane dropMiss).freeCredit_routersOnly t port f.lane
  rw [h]
  exact State.dropAt_tile ..

/-! ### A flit over a mesh link -/

/-- The state in which mesh output `o` of tile `t` has granted a candidate, which left its place and took a credit. -/
def State.granted (s : State) (t o : Nat) (c : Cand) : State :=
  let u := s.takeCand t c
  let k := 8 * o + c.flit.lane
  u.setRouter t { u.router t with used := (u.router t).used.set k (Tbl.get 0 (u.router t).used k + 1) }

theorem State.granted_grantOnly (s : State) (t o : Nat) (c : Cand) : GrantOnly t s (s.granted t o c) :=
  .trans (s.takeCand_grantOnly t c) (.setRouter ..)

theorem exec_routerForward (t o hdr : Nat) (bad : BitVec 8) (s : State) :
    exec (.routerForward t o hdr bad) s = execRouterForward t o hdr bad s := rfl

/-- Through an open port the granted flit reaches the neighbour. -/
theorem exec_routerForward_mesh {s : State} {t o v : Nat} {c : Cand} (ht : t < 9216) (ho : 0 < o) (ho5 : o < 5)
    (best : bestCand ((s.router t).cands o |>.filter (s.credited t o)) = some c) (clocked : s.tileClocked t = true)
    (opens : (s.router t).open? o = true) (hv : s.neighbour t o = some v) (hdr : Nat) (bad : BitVec 8) :
    exec (.routerForward t o hdr bad) s =
      .next ((s.granted t o c).arriveFlit v (opposite o) hdr { c.flit with bad := c.flit.bad ||| bad }) := by
  have inRange : ¬ (numTiles ≤ t ∨ 5 ≤ o) := by unfold numTiles; omega
  have next : (s.takeCand t c).neighbour t o = some v := ((s.takeCand_grantOnly t c).neighbour t o).trans hv
  rw [exec_routerForward]
  simp only [execRouterForward, if_neg inRange, best, clocked, if_true, if_neg (Nat.ne_of_gt ho), opens, Bool.not_true,
    Bool.false_eq_true, if_false, next]
  rfl

/-! ### A flit at the local input -/

/-- The tile once flit `i` of a send, from source block `blk`, has left it: the send goes on, or it is done and owes its signal
(R175, R176). -/
def Tile.flitSent (x : Tile) (o : Order) (i : Nat) (blk : BitVec 4096) : Tile :=
  if i + 1 < xNFLIT o then { x with sending := some { sent := i + 1, block := blk } }
  else { x with sending := none, xe := { x.xe with exec := none, owed := x.xe.owed ++ [o] } }

theorem Tile.flitSent_more {o : Order} {i : Nat} (h : i + 1 < xNFLIT o) (x : Tile) (blk : BitVec 4096) :
    (x.flitSent o i blk).sending = some { sent := i + 1, block := blk } := by
  rw [Tile.flitSent, if_pos h]

theorem Tile.flitSent_last {o : Order} {i : Nat} (h : i + 1 = xNFLIT o) (x : Tile) (blk : BitVec 4096) :
    (x.flitSent o i blk).sending = none ∧ (x.flitSent o i blk).xe.owed = x.xe.owed ++ [o] := by
  rw [Tile.flitSent, if_neg (by omega)]
  exact ⟨rfl, rfl⟩

/-- The lane of a send's flits: that of the channel's entry, 0 where the entry has gone. -/
def Router.sendLane (r : Router) (o : Order) : Nat := ((r.route (xCH o)).map rteLane).getD 0

theorem exec_flitInject (t : Nat) (env : List (Nat × Bool) × Nat) (s : State) :
    exec (.flitInject t env) s = execFlitInject t env s := rfl

/-- The next flit of a send under way reaches the local input when its source reads well and a lane does not hold it back. -/
theorem exec_flitInject_sends {s : State} {t hdr : Nat} {ups : List (Nat × Bool)} {sd : Sending} {o : Order} {x : Tile}
    (ht : t < 9216) (run : s.enginesRun t = true) (ho : (s.tile t).xe.exec = some o) (hsd : (s.tile t).sending = some sd)
    (source : (if sd.sent % 8 = 0 then ((s.tile t).upsets ups).readSpan (xSRC o + 64 * sd.sent) 512 else (s.tile t, none)) = (x, none))
    (credit : (s.router t).route (xCH o) = none ∨ (Tbl.get [] (s.router t).inq ((s.router t).sendLane o)).length < 8) :
    ∃ blk, exec (.flitInject t (ups, hdr)) s =
      .next ((s.setTile t (x.flitSent o sd.sent blk)).arriveFlit t 0 hdr (sendFlit o ((s.router t).sendLane o) sd.sent blk)) := by
  have inRange : ¬ numTiles ≤ t := by unfold numTiles; omega
  have free : (((s.router t).route (xCH o)).isNone ||
      decide ((Tbl.get [] (s.router t).inq ((s.router t).sendLane o)).length < localCredits)) = true := by
    rw [Bool.or_eq_true, Option.isNone_iff_eq_none, decide_eq_true_eq]
    exact credit
  refine ⟨if sd.sent % 8 = 0 then BitVec.ofNat 4096 (x.readMem (xSRC o + 64 * sd.sent) 512) else sd.block, ?_⟩
  unfold Router.sendLane at free ⊢
  rw [exec_flitInject]
  simp only [execFlitInject, if_neg inRange, ho, hsd, run, free, Bool.and_self, if_true, source, Tile.flitSent]
  split <;> rfl

/-- The source read of a send leaves the tile's exchange engine. -/
theorem sourceRead_xe {tl x : Tile} {c : Prop} [Decidable c] {ups : List (Nat × Bool)} {addr len : Nat} {r : Option (Nat × Bool)}
    (h : (if c then (tl.upsets ups).readSpan addr len else (tl, none)) = (x, r)) : x.xe = tl.xe := by
  rw [show x = _ from (congrArg Prod.fst h).symm]
  split
  · rw [Tile.readSpan_xe, Tile.upsets_xe]
  · rfl

/-- Settles O60: both ways into a router end in `State.arriveFlit_droppedAsMiss`. Over a mesh link, the grant at the sender leaves the
next router as it was but for its credits; at the local input, where the port is always open, the send's tile goes on besides. -/
theorem routeMisses : Obligations.RouteMisses := by
  intro s t ht misses dropped
  refine ⟨?mesh, ?localInput⟩
  case mesh =>
    intro o bad c v ho ho5 best clocked opens hv hne openv m
    have there := (s.granted_grantOnly t o c).elsewhere v hne
    have m' : ((s.granted t o c).router v).Misses c.flit.ch (opposite o) c.flit.lane := Router.Misses.of_sameButReturning m there
    refine ⟨_, exec_routerForward_mesh ht ho ho5 best clocked opens hv 0 bad, ?_⟩
    exact (State.arriveFlit_droppedAsMiss (f := { c.flit with bad := c.flit.bad ||| bad })
      ((there.open? _).trans openv) m').of_sameButReturning there (.refl _)
  case localInput =>
    intro ups sd o x run ho hsd source m lane
    have credit : (s.router t).route (xCH o) = none ∨ (Tbl.get [] (s.router t).inq ((s.router t).sendLane o)).length < 8 := by
      refine m.imp_right ?_
      rintro ⟨e, he, -, room⟩
      rwa [Router.sendLane, he]
    have m' : (s.router t).Misses (xCH o) 0 lane := m.imp_right fun ⟨e, he, hin, _⟩ => ⟨e, he, .inl hin⟩
    obtain ⟨blk, sends⟩ := exec_flitInject_sends (hdr := 0) ht run ho hsd source credit
    have tile := (State.arriveFlit_tile_of_misses (s := s.setTile t (x.flitSent o sd.sent blk)) (f := sendFlit o lane sd.sent blk)
      (port := 0) rfl m' t).trans ((State.setTile_tile ..).trans (if_pos rfl))
    refine ⟨_, sends, State.arriveFlit_droppedAsMiss (f := sendFlit o lane sd.sent blk) (port := 0) rfl m', fun more => ⟨blk, ?_⟩,
      fun last => ?_⟩
    · exact (congrArg Tile.sending tile).trans (Tile.flitSent_more more x blk)
    · obtain ⟨sending, owed⟩ := Tile.flitSent_last last x blk
      exact ⟨(congrArg Tile.sending tile).trans sending,
        (congrArg (·.xe.owed) tile).trans (owed.trans (by rw [sourceRead_xe source]))⟩

end Sys2Proof.Machine
end
